-- ==== Sys2Proof/Word.lean ====
section
/-! DEFINITION. The bit-vector types the spec's values are made of (00_scope.md R8, R9, R11). -/

namespace Sys2Proof

/-- A byte of a USB packet, a FIFO or a byte port (R9). -/
abbrev Byte := BitVec 8

/-- A 32-bit bus word or bus address (R6 `BUS_DATA_W`, `BUS_ADDR_W`). -/
abbrev Word := BitVec 32

/-- A per-endpoint mask: bit n belongs to endpoint number n (R11). -/
abbrev Mask := BitVec 16

/-- An endpoint number, 0 to 15 (R6 `NUM_EP`, R122). -/
abbrev Ep := BitVec 4

/-- A device address, 0 to 127 (R6 `ADDR_W`, R33). -/
abbrev DevAddr := BitVec 7

end Sys2Proof
end

