-- ==== Sys2Proof/Syntax.lean ====
section
/-! DEFINITION. What the core is given: the instructions of opcode_table.json (received packets by PID, register accesses),
the raw inputs they are decoded from, and the steps of the agents (10_state.md R21, R27; 30_encoding.md). -/

namespace Sys2Proof

/-- Every row of opcode_table.json: the 16 PIDs of 30_encoding.md R111 with their decoded operands, and a read and a
write of each of the 38 registers of 10_state.md R55 to R59. The bytes after a special PID are kept as `rest`; nothing
reads them (40_link_layer.md R147). -/
inductive Instr where
  /-- `PID_OUT` (R152). -/
  | pidOut (addr : DevAddr) (ep : Ep)
  /-- `PID_IN` (R153). -/
  | pidIn (addr : DevAddr) (ep : Ep)
  /-- `PID_SOF` (R155). -/
  | pidSof (frame : BitVec 11)
  /-- `PID_SETUP` (R154). -/
  | pidSetup (addr : DevAddr) (ep : Ep)
  /-- `PID_DATA0` (R156). -/
  | pidData0 (payload : List Byte)
  /-- `PID_DATA1` (R157). -/
  | pidData1 (payload : List Byte)
  /-- `PID_DATA2` (R158). -/
  | pidData2 (payload : List Byte)
  /-- `PID_MDATA` (R159). -/
  | pidMdata (payload : List Byte)
  /-- `PID_ACK` (R160). -/
  | pidAck
  /-- `PID_NAK` (R161). -/
  | pidNak
  /-- `PID_STALL` (R162). -/
  | pidStall
  /-- `PID_NYET` (R163). -/
  | pidNyet
  /-- `PID_PRE_ERR` (R164). -/
  | pidPreErr (rest : List Byte)
  /-- `PID_SPLIT` (R165). -/
  | pidSplit (rest : List Byte)
  /-- `PID_PING` (R166). -/
  | pidPing (rest : List Byte)
  /-- `PID_RESERVED` (R167). -/
  | pidReserved (rest : List Byte)
  /-- Read `DC.EV_PENDING` (R282). -/
  | rDcEvPending
  /-- Write `DC.EV_PENDING` (R283). -/
  | wDcEvPending (v : Word)
  /-- Read `DC.EV_ENABLE` (R284). -/
  | rDcEvEnable
  /-- Write `DC.EV_ENABLE` (R285). -/
  | wDcEvEnable (v : Word)
  /-- Read `DC.ENABLE` (R187). -/
  | rDcEnable
  /-- Write `DC.ENABLE` (R186). -/
  | wDcEnable (v : Word)
  /-- Read `DC.ADDRESS` (R189). -/
  | rDcAddress
  /-- Write `DC.ADDRESS` (R188). -/
  | wDcAddress (v : Word)
  /-- Read `DC.SPEED` (R190). -/
  | rDcSpeed
  /-- Write `DC.SPEED` (R191). -/
  | wDcSpeed (v : Word)
  /-- Read `DC.STATUS` (R192). -/
  | rDcStatus
  /-- Write `DC.STATUS` (R193). -/
  | wDcStatus (v : Word)
  /-- Read `DC.CTRL` (R195). -/
  | rDcCtrl
  /-- Write `DC.CTRL` (R194). -/
  | wDcCtrl (v : Word)
  /-- Read `DC.CONFIGURED` (R197). -/
  | rDcConfigured
  /-- Write `DC.CONFIGURED` (R196). -/
  | wDcConfigured (v : Word)
  /-- Read `SETUP.EV_PENDING` (R282). -/
  | rSetupEvPending
  /-- Write `SETUP.EV_PENDING` (R283). -/
  | wSetupEvPending (v : Word)
  /-- Read `SETUP.EV_ENABLE` (R284). -/
  | rSetupEvEnable
  /-- Write `SETUP.EV_ENABLE` (R285). -/
  | wSetupEvEnable (v : Word)
  /-- Read `SETUP.DATA0` (R207). -/
  | rSetupData0
  /-- Write `SETUP.DATA0` (R208). -/
  | wSetupData0 (v : Word)
  /-- Read `SETUP.DATA1` (R207). -/
  | rSetupData1
  /-- Write `SETUP.DATA1` (R208). -/
  | wSetupData1 (v : Word)
  /-- Read `SETUP.DATA2` (R207). -/
  | rSetupData2
  /-- Write `SETUP.DATA2` (R208). -/
  | wSetupData2 (v : Word)
  /-- Read `SETUP.DATA3` (R207). -/
  | rSetupData3
  /-- Write `SETUP.DATA3` (R208). -/
  | wSetupData3 (v : Word)
  /-- Read `SETUP.DATA4` (R207). -/
  | rSetupData4
  /-- Write `SETUP.DATA4` (R208). -/
  | wSetupData4 (v : Word)
  /-- Read `SETUP.DATA5` (R207). -/
  | rSetupData5
  /-- Write `SETUP.DATA5` (R208). -/
  | wSetupData5 (v : Word)
  /-- Read `SETUP.DATA6` (R207). -/
  | rSetupData6
  /-- Write `SETUP.DATA6` (R208). -/
  | wSetupData6 (v : Word)
  /-- Read `SETUP.DATA7` (R207). -/
  | rSetupData7
  /-- Write `SETUP.DATA7` (R208). -/
  | wSetupData7 (v : Word)
  /-- Read `SETUP.STATUS` (R209). -/
  | rSetupStatus
  /-- Write `SETUP.STATUS` (R210). -/
  | wSetupStatus (v : Word)
  /-- Read `SETUP.ACK` (R212). -/
  | rSetupAck
  /-- Write `SETUP.ACK` (R211). -/
  | wSetupAck (v : Word)
  /-- Read `IN.EV_PENDING` (R282). -/
  | rInEvPending
  /-- Write `IN.EV_PENDING` (R283). -/
  | wInEvPending (v : Word)
  /-- Read `IN.EV_ENABLE` (R284). -/
  | rInEvEnable
  /-- Write `IN.EV_ENABLE` (R285). -/
  | wInEvEnable (v : Word)
  /-- Read `IN.DATA` (R237). -/
  | rInData
  /-- Write `IN.DATA` (R236). -/
  | wInData (v : Word)
  /-- Read `IN.EPNO` (R239). -/
  | rInEpno
  /-- Write `IN.EPNO` (R238). -/
  | wInEpno (v : Word)
  /-- Read `IN.READY` (R241). -/
  | rInReady
  /-- Write `IN.READY` (R240). -/
  | wInReady (v : Word)
  /-- Read `IN.STALL` (R243). -/
  | rInStall
  /-- Write `IN.STALL` (R242). -/
  | wInStall (v : Word)
  /-- Read `IN.EP_ENABLE` (R245). -/
  | rInEpEnable
  /-- Write `IN.EP_ENABLE` (R244). -/
  | wInEpEnable (v : Word)
  /-- Read `IN.STATUS` (R246). -/
  | rInStatus
  /-- Write `IN.STATUS` (R247). -/
  | wInStatus (v : Word)
  /-- Read `IN.CTRL` (R249). -/
  | rInCtrl
  /-- Write `IN.CTRL` (R248). -/
  | wInCtrl (v : Word)
  /-- Read `OUT.EV_PENDING` (R282). -/
  | rOutEvPending
  /-- Write `OUT.EV_PENDING` (R283). -/
  | wOutEvPending (v : Word)
  /-- Read `OUT.EV_ENABLE` (R284). -/
  | rOutEvEnable
  /-- Write `OUT.EV_ENABLE` (R285). -/
  | wOutEvEnable (v : Word)
  /-- Read `OUT.DATA` (R263). -/
  | rOutData
  /-- Write `OUT.DATA` (R264). -/
  | wOutData (v : Word)
  /-- Read `OUT.EPNO` (R265). -/
  | rOutEpno
  /-- Write `OUT.EPNO` (R266). -/
  | wOutEpno (v : Word)
  /-- Read `OUT.ACK` (R268). -/
  | rOutAck
  /-- Write `OUT.ACK` (R267). -/
  | wOutAck (v : Word)
  /-- Read `OUT.STALL` (R270). -/
  | rOutStall
  /-- Write `OUT.STALL` (R269). -/
  | wOutStall (v : Word)
  /-- Read `OUT.EP_ENABLE` (R272). -/
  | rOutEpEnable
  /-- Write `OUT.EP_ENABLE` (R271). -/
  | wOutEpEnable (v : Word)
  /-- Read `OUT.STATUS` (R273). -/
  | rOutStatus
  /-- Write `OUT.STATUS` (R274). -/
  | wOutStatus (v : Word)
  /-- Read `OUT.CTRL` (R276). -/
  | rOutCtrl
  /-- Write `OUT.CTRL` (R275). -/
  | wOutCtrl (v : Word)
  deriving DecidableEq, Repr

/-- The 38 registers of 10_state.md R55 to R59. -/
inductive Reg where
  | dcEvPending
  | dcEvEnable
  | dcEnable
  | dcAddress
  | dcSpeed
  | dcStatus
  | dcCtrl
  | dcConfigured
  | setupEvPending
  | setupEvEnable
  | setupData0
  | setupData1
  | setupData2
  | setupData3
  | setupData4
  | setupData5
  | setupData6
  | setupData7
  | setupStatus
  | setupAck
  | inEvPending
  | inEvEnable
  | inData
  | inEpno
  | inReady
  | inStall
  | inEpEnable
  | inStatus
  | inCtrl
  | outEvPending
  | outEvEnable
  | outData
  | outEpno
  | outAck
  | outStall
  | outEpEnable
  | outStatus
  | outCtrl
  deriving DecidableEq, Repr

/-- The four windows of 20_memory.md R81, which are also the four interrupt lines of 45_event_aggregator.md R280. -/
inductive Line where
  | dc
  | setup
  | inEp
  | outEp
  deriving DecidableEq, Repr

/-- The device states of 10_state.md R32. -/
inductive DevState where
  | detached
  | powered
  | default
  | addressed
  | configured
  deriving DecidableEq, Repr

/-- The speeds of 10_state.md R34. -/
inductive Speed where
  | none
  | full
  deriving DecidableEq, Repr

/-- The line states of 10_state.md R43. -/
inductive LineState where
  | se0
  | j
  | k
  | se1
  deriving DecidableEq, Repr, Inhabited

/-- The two kinds of input the core decodes (30_encoding.md): a received packet with the PHY's error flag (10_state.md
R27), and a bus access at the byte address `a` (20_memory.md R80, R86). -/
inductive Input where
  | packet (bytes : List Byte) (err : Bool)
  | csrRead (a : Word)
  | csrWrite (a : Word) (v : Word)
  deriving DecidableEq, Repr

/-- One step of an agent (10_state.md R21): `HOST` presents a packet, a bus reset, a timeout or a line state and `USB`
handles it; `FW` makes an access; `S2U` or `U2S` delivers one message; or the power-on reset is released
(70_reset_and_hazards.md R320). -/
inductive Action where
  | input (x : Input)
  | busReset
  | timeout
  | lineState (ls : LineState)
  | s2u
  | u2s
  | powerOn
  deriving DecidableEq, Repr, Inhabited

end Sys2Proof
end

