-- ==== Sys2Proof/Config.lean ====
section
/-! DEFINITION. What an implementation fixes (00_scope.md R6) and the free values of the model. -/

namespace Sys2Proof

/-- The CPU interrupt input each line drives: the parameter `IRQ_MAP` (60_exceptions.md R298). -/
structure IrqMap where
  dc : Nat
  setup : Nat
  inEp : Nat
  outEp : Nat
  deriving DecidableEq, Repr, Inhabited

/-- The parameters of 00_scope.md R6 that the spec does not fix, each in the whole range R6 gives it. They are fixed for a
run and never written (10_state.md R29). `csrPage` is `CSR_BASE / 0x1000`, and any will do (20_memory.md R81; D1).
`inDepthPred` and `outDepthPred` are `IN_DEPTH - 1` and `OUT_DEPTH - 1`; a depth that is not given is 64 (R6). `SYNC_DELAY`
is a parameter of timed models only (R6; log 9). -/
structure Config where
  csrPage : BitVec 20
  inDepthPred : Fin 127 := 63
  outDepthPred : Fin 127 := 63
  s2uFlushOnReset : Bool
  setupClearsStall : Bool
  irqMap : IrqMap
  deriving DecidableEq, Repr, Inhabited

/-- `CSR_BASE`, a multiple of 0x1000 (20_memory.md R81). -/
def Config.csrBase (c : Config) : Word := c.csrPage ++ (0 : BitVec 12)

/-- `IN_DEPTH`, 1 to 127 (00_scope.md R6). -/
def Config.inDepth (c : Config) : Nat := c.inDepthPred.val + 1

/-- `OUT_DEPTH`, 1 to 127 (00_scope.md R6). -/
def Config.outDepth (c : Config) : Nat := c.outDepthPred.val + 1

/-- The parameter values of the machine at hand: nothing fixes them (log 3). -/
opaque Config.machine : Config

/-- What the line shows when power-on reset is released (10_state.md R43: "whatever the line shows"): nothing fixes it
(log 7). -/
opaque Config.lineAtReset : LineState

/-- The n-th step the environment takes when the agenda names none: which agent, with which input. Nothing fixes it
(93_implementation_defined.md M4, M6, M7; log 1). -/
opaque Config.draw : Nat → Action

end Sys2Proof
end

