-- ==== Sys2Proof/WellFormed.lean ====
section
/-! DEFINITION. Well-formed inputs. Every operand of `Instr` has the width the spec gives it by its type (30_encoding.md
R122, R124), so every term of `Instr` is well formed; what can be ill formed is a bus access. -/

namespace Sys2Proof

/-- An access address is a multiple of 4: `a[1:0] = 0` (20_memory.md R87, R88). -/
def alignedAddr (a : Word) : Bool := a.extractLsb' 0 2 == 0

/-- Any packet may be presented (10_state.md R22); an access must be aligned (20_memory.md R88). -/
def Input.wf : Input → Bool
  | .packet _ _ => true
  | .csrRead a => alignedAddr a
  | .csrWrite a _ => alignedAddr a

end Sys2Proof
end

