-- ==== Sys2Proof/Decode.lean ====
section
/-! DEFINITION. The two decoders of 30_encoding.md: packet classification (40_link_layer.md R140 to R147) and bus
decoding (20_memory.md R82); and the encoder written from the same tables. -/

namespace Sys2Proof

/-! ### CRCs -/

/-- `n` rounds of the CRC5 loop of 30_encoding.md R117. `v` is shifted down once a round, so that `v[i]` is its bit 0 in
round i. -/
def crc5Rounds : Nat → BitVec 11 → BitVec 5 → BitVec 5
  | 0, _, c => c
  | n + 1, v, c =>
    crc5Rounds n (v >>> 1) (if (c.getLsbD 0 ^^ v.getLsbD 0) = true then (c >>> 1) ^^^ 0x14#5 else c >>> 1)

/-- `crc5` of 30_encoding.md R117. -/
def crc5 (v : BitVec 11) : BitVec 5 := crc5Rounds 11 v 0x1F#5 ^^^ 0x1F#5

/-- `n` rounds of the inner CRC16 loop of 30_encoding.md R118. -/
def crc16Rounds : Nat → BitVec 16 → BitVec 16
  | 0, c => c
  | n + 1, c => crc16Rounds n (if c.getLsbD 0 = true then (c >>> 1) ^^^ 0xA001#16 else c >>> 1)

/-- `crc16` of 30_encoding.md R118. -/
def crc16 (bytes : List Byte) : BitVec 16 :=
  (bytes.foldl (fun c b => crc16Rounds 8 (c ^^^ b.setWidth 16)) 0xFFFF#16) ^^^ 0xFFFF#16

/-! ### PIDs -/

/-- Token PIDs with an address (30_encoding.md R111). -/
inductive TokenPid where
  | out
  | inn
  | setup
  deriving DecidableEq, Repr

/-- Data PIDs (30_encoding.md R111). -/
inductive DataPid where
  | data0
  | data1
  | data2
  | mdata
  deriving DecidableEq, Repr

/-- Handshake PIDs (30_encoding.md R111). -/
inductive HandshakePid where
  | ack
  | nak
  | stall
  | nyet
  deriving DecidableEq, Repr

/-- Special PIDs (30_encoding.md R111). -/
inductive SpecialPid where
  | preErr
  | split
  | ping
  | reserved
  deriving DecidableEq, Repr

/-- The 16 PIDs of 30_encoding.md R111, by class (R112). -/
inductive Pid where
  | token (p : TokenPid)
  | sof
  | data (p : DataPid)
  | handshake (p : HandshakePid)
  | special (p : SpecialPid)
  deriving DecidableEq, Repr

/-- The PID table of 30_encoding.md R111. -/
def Pid.nibble : Pid → BitVec 4
  | .token .out => 0b0001#4
  | .token .inn => 0b1001#4
  | .sof => 0b0101#4
  | .token .setup => 0b1101#4
  | .data .data0 => 0b0011#4
  | .data .data1 => 0b1011#4
  | .data .data2 => 0b0111#4
  | .data .mdata => 0b1111#4
  | .handshake .ack => 0b0010#4
  | .handshake .nak => 0b1010#4
  | .handshake .stall => 0b1110#4
  | .handshake .nyet => 0b0110#4
  | .special .preErr => 0b1100#4
  | .special .split => 0b1000#4
  | .special .ping => 0b0100#4
  | .special .reserved => 0b0000#4

/-- The 16 rows of 30_encoding.md R111. -/
def Pid.all : List Pid :=
  [.token .out, .token .inn, .sof, .token .setup, .data .data0, .data .data1, .data .data2, .data .mdata,
   .handshake .ack, .handshake .nak, .handshake .stall, .handshake .nyet,
   .special .preErr, .special .split, .special .ping, .special .reserved]

/-- The PID a packet identifier stands for: the row of R111 with that value. There is a row for every value
(`ofNibble_nibble`, `nibble_ofNibble` in Sys2Proof/Laws/Decode.lean), so the value after `getD` is never used. -/
def Pid.ofNibble (n : BitVec 4) : Pid := (Pid.all.find? fun p => p.nibble == n).getD (.special .reserved)

/-- The PID byte: the identifier in bits [3:0], its complement in bits [7:4] (30_encoding.md R110). -/
def Pid.byte (p : Pid) : Byte := (~~~p.nibble) ++ p.nibble

/-! ### Packet classification -/

/-- Why a packet is malformed, one name for each test of 40_link_layer.md R141 to R146 that can fail. -/
inductive Malformed where
  | phyError
  | emptyPacket
  | pidCheck
  | tokenLength
  | tokenCrc
  | dataLength
  | dataCrc
  | handshakeLength
  deriving DecidableEq, Repr

/-- The classes of 40_link_layer.md R140. `malformed` also says which test failed, and `special` keeps the bytes after
the PID; the core acts on neither. -/
inductive PacketClass where
  | malformed (why : Malformed)
  | token (pid : TokenPid) (addr : DevAddr) (ep : Ep)
  | sof (frame : BitVec 11)
  | data (pid : DataPid) (payload : List Byte)
  | handshake (pid : HandshakePid)
  | special (pid : SpecialPid) (rest : List Byte)
  deriving DecidableEq, Repr

/-- The length and CRC5 test of 40_link_layer.md R143 on the bytes after the PID: the 11 field bits `w[10:0]`. -/
def tokenField (rest : List Byte) : Except Malformed (BitVec 11) :=
  match rest with
  | [b1, b2] =>
    let w : BitVec 16 := b2 ++ b1
    if w.extractLsb' 11 5 = crc5 (w.extractLsb' 0 11) then .ok (w.extractLsb' 0 11) else .error .tokenCrc
  | _ => .error .tokenLength

/-- The length and CRC16 test of 40_link_layer.md R145 on the bytes after the PID: the payload. -/
def dataPayload (rest : List Byte) : Except Malformed (List Byte) :=
  let n := rest.length
  if n < 2 then .error .dataLength
  else
    let payload := rest.take (n - 2)
    let c : BitVec 16 := rest.getD (n - 1) 0 ++ rest.getD (n - 2) 0
    if c = crc16 payload then .ok payload else .error .dataCrc

/-- The class of a packet whose PID byte is valid, from its PID and the bytes after it (40_link_layer.md R143 to R147). -/
def classifyPid (pid : Pid) (rest : List Byte) : PacketClass :=
  match pid with
  | .token t =>
    match tokenField rest with
    | .ok w => .token t (w.extractLsb' 0 7) (w.extractLsb' 7 4)
    | .error e => .malformed e
  | .sof =>
    match tokenField rest with
    | .ok w => .sof w
    | .error e => .malformed e
  | .data d =>
    match dataPayload rest with
    | .ok payload => .data d payload
    | .error e => .malformed e
  | .handshake h =>
    match rest with
    | [] => .handshake h
    | _ :: _ => .malformed .handshakeLength
  | .special p => .special p rest

/-- `classify` of 40_link_layer.md R140: R141, R142, then the test of the PID's class. -/
def classify (p : List Byte) (err : Bool) : PacketClass :=
  if err then .malformed .phyError
  else
    match p with
    | [] => .malformed .emptyPacket
    | b0 :: rest =>
      if b0.extractLsb' 4 4 = ~~~(b0.extractLsb' 0 4) then classifyPid (Pid.ofNibble (b0.extractLsb' 0 4)) rest
      else .malformed .pidCheck

/-- The instruction a class stands for; a malformed packet is none (40_link_layer.md R148). -/
def PacketClass.instr : PacketClass → Except Malformed Instr
  | .malformed why => .error why
  | .token .out addr ep => .ok (.pidOut addr ep)
  | .token .inn addr ep => .ok (.pidIn addr ep)
  | .token .setup addr ep => .ok (.pidSetup addr ep)
  | .sof frame => .ok (.pidSof frame)
  | .data .data0 payload => .ok (.pidData0 payload)
  | .data .data1 payload => .ok (.pidData1 payload)
  | .data .data2 payload => .ok (.pidData2 payload)
  | .data .mdata payload => .ok (.pidMdata payload)
  | .handshake .ack => .ok .pidAck
  | .handshake .nak => .ok .pidNak
  | .handshake .stall => .ok .pidStall
  | .handshake .nyet => .ok .pidNyet
  | .special .preErr rest => .ok (.pidPreErr rest)
  | .special .split rest => .ok (.pidSplit rest)
  | .special .ping rest => .ok (.pidPing rest)
  | .special .reserved rest => .ok (.pidReserved rest)

/-! ### Bus decoding -/

/-- The window each register stands in (10_state.md R55 to R59). -/
def Reg.window : Reg → Line
  | .dcEvPending | .dcEvEnable | .dcEnable | .dcAddress | .dcSpeed | .dcStatus | .dcCtrl | .dcConfigured => .dc
  | .setupEvPending | .setupEvEnable | .setupData0 | .setupData1 | .setupData2 | .setupData3 | .setupData4 | .setupData5 | .setupData6 | .setupData7 | .setupStatus | .setupAck => .setup
  | .inEvPending | .inEvEnable | .inData | .inEpno | .inReady | .inStall | .inEpEnable | .inStatus | .inCtrl => .inEp
  | .outEvPending | .outEvEnable | .outData | .outEpno | .outAck | .outStall | .outEpEnable | .outStatus | .outCtrl => .outEp

/-- The offset of each register in its window (10_state.md R55 to R59). -/
def Reg.offset : Reg → BitVec 12
  | .dcEvPending => 0x000
  | .dcEvEnable => 0x004
  | .dcEnable => 0x010
  | .dcAddress => 0x014
  | .dcSpeed => 0x018
  | .dcStatus => 0x01C
  | .dcCtrl => 0x020
  | .dcConfigured => 0x024
  | .setupEvPending => 0x000
  | .setupEvEnable => 0x004
  | .setupData0 => 0x010
  | .setupData1 => 0x014
  | .setupData2 => 0x018
  | .setupData3 => 0x01C
  | .setupData4 => 0x020
  | .setupData5 => 0x024
  | .setupData6 => 0x028
  | .setupData7 => 0x02C
  | .setupStatus => 0x030
  | .setupAck => 0x034
  | .inEvPending => 0x000
  | .inEvEnable => 0x004
  | .inData => 0x010
  | .inEpno => 0x014
  | .inReady => 0x018
  | .inStall => 0x01C
  | .inEpEnable => 0x020
  | .inStatus => 0x024
  | .inCtrl => 0x028
  | .outEvPending => 0x000
  | .outEvEnable => 0x004
  | .outData => 0x010
  | .outEpno => 0x014
  | .outAck => 0x018
  | .outStall => 0x01C
  | .outEpEnable => 0x020
  | .outStatus => 0x024
  | .outCtrl => 0x028

/-- The window number `w` of 20_memory.md R81. -/
def Line.number : Line → BitVec 2
  | .dc => 0
  | .setup => 1
  | .inEp => 2
  | .outEp => 3

/-- Every register once. -/
def Reg.all : List Reg :=
  [.dcEvPending, .dcEvEnable, .dcEnable, .dcAddress, .dcSpeed, .dcStatus, .dcCtrl, .dcConfigured,
   .setupEvPending, .setupEvEnable, .setupData0, .setupData1, .setupData2, .setupData3, .setupData4, .setupData5, .setupData6, .setupData7, .setupStatus, .setupAck,
   .inEvPending, .inEvEnable, .inData, .inEpno, .inReady, .inStall, .inEpEnable, .inStatus, .inCtrl,
   .outEvPending, .outEvEnable, .outData, .outEpno, .outAck, .outStall, .outEpEnable, .outStatus, .outCtrl]

/-- The register at offset `reg` of window `w`, if that offset names one (20_memory.md R82). -/
def Reg.at? (w : BitVec 2) (reg : BitVec 12) : Option Reg :=
  Reg.all.find? fun r => r.window.number == w && r.offset == reg

/-- `0x1000 * w + off`: the displacement of a register from `CSR_BASE` (30_encoding.md R123). -/
def Reg.busOff (r : Reg) : Word := (r.window.number ++ r.offset).setWidth 32

/-- `CSR_BASE + 0x1000 * w + off`: the byte address of a register (30_encoding.md R123). Where the sum does not fit 32 bits
the register has no address (`Instr.encodable`). -/
def Reg.busAddr (base : Word) (r : Reg) : Word := base + r.busOff

/-- What the decoder selects (20_memory.md R82). -/
inductive Target where
  | noDevice
  | undefinedOffset
  | reg (r : Reg)
  deriving DecidableEq, Repr

/-- The decode of the byte address `a` with the windows at `base` (20_memory.md R82). -/
def busTarget (base a : Word) : Target :=
  let off := a - base
  if a.toNat < base.toNat ∨ 0x4000 ≤ off.toNat then .noDevice
  else
    match Reg.at? (off.extractLsb' 12 2) (off.extractLsb' 0 12) with
    | some r => .reg r
    | none => .undefinedOffset

/-- The read of each register. -/
def Reg.readInstr : Reg → Instr
  | .dcEvPending => .rDcEvPending
  | .dcEvEnable => .rDcEvEnable
  | .dcEnable => .rDcEnable
  | .dcAddress => .rDcAddress
  | .dcSpeed => .rDcSpeed
  | .dcStatus => .rDcStatus
  | .dcCtrl => .rDcCtrl
  | .dcConfigured => .rDcConfigured
  | .setupEvPending => .rSetupEvPending
  | .setupEvEnable => .rSetupEvEnable
  | .setupData0 => .rSetupData0
  | .setupData1 => .rSetupData1
  | .setupData2 => .rSetupData2
  | .setupData3 => .rSetupData3
  | .setupData4 => .rSetupData4
  | .setupData5 => .rSetupData5
  | .setupData6 => .rSetupData6
  | .setupData7 => .rSetupData7
  | .setupStatus => .rSetupStatus
  | .setupAck => .rSetupAck
  | .inEvPending => .rInEvPending
  | .inEvEnable => .rInEvEnable
  | .inData => .rInData
  | .inEpno => .rInEpno
  | .inReady => .rInReady
  | .inStall => .rInStall
  | .inEpEnable => .rInEpEnable
  | .inStatus => .rInStatus
  | .inCtrl => .rInCtrl
  | .outEvPending => .rOutEvPending
  | .outEvEnable => .rOutEvEnable
  | .outData => .rOutData
  | .outEpno => .rOutEpno
  | .outAck => .rOutAck
  | .outStall => .rOutStall
  | .outEpEnable => .rOutEpEnable
  | .outStatus => .rOutStatus
  | .outCtrl => .rOutCtrl

/-- The write of `v` to each register. -/
def Reg.writeInstr (v : Word) : Reg → Instr
  | .dcEvPending => .wDcEvPending v
  | .dcEvEnable => .wDcEvEnable v
  | .dcEnable => .wDcEnable v
  | .dcAddress => .wDcAddress v
  | .dcSpeed => .wDcSpeed v
  | .dcStatus => .wDcStatus v
  | .dcCtrl => .wDcCtrl v
  | .dcConfigured => .wDcConfigured v
  | .setupEvPending => .wSetupEvPending v
  | .setupEvEnable => .wSetupEvEnable v
  | .setupData0 => .wSetupData0 v
  | .setupData1 => .wSetupData1 v
  | .setupData2 => .wSetupData2 v
  | .setupData3 => .wSetupData3 v
  | .setupData4 => .wSetupData4 v
  | .setupData5 => .wSetupData5 v
  | .setupData6 => .wSetupData6 v
  | .setupData7 => .wSetupData7 v
  | .setupStatus => .wSetupStatus v
  | .setupAck => .wSetupAck v
  | .inEvPending => .wInEvPending v
  | .inEvEnable => .wInEvEnable v
  | .inData => .wInData v
  | .inEpno => .wInEpno v
  | .inReady => .wInReady v
  | .inStall => .wInStall v
  | .inEpEnable => .wInEpEnable v
  | .inStatus => .wInStatus v
  | .inCtrl => .wInCtrl v
  | .outEvPending => .wOutEvPending v
  | .outEvEnable => .wOutEvEnable v
  | .outData => .wOutData v
  | .outEpno => .wOutEpno v
  | .outAck => .wOutAck v
  | .outStall => .wOutStall v
  | .outEpEnable => .wOutEpEnable v
  | .outStatus => .wOutStatus v
  | .outCtrl => .wOutCtrl v

/-! ### The decoder and the encoder -/

/-- Why an input is no instruction: a malformed packet (40_link_layer.md R148), a misaligned access (20_memory.md R88),
an access outside the windows (R83) or at an undefined offset (R84). -/
inductive Reject where
  | malformed (why : Malformed)
  | misaligned
  | noDevice
  | undefinedOffset
  deriving DecidableEq, Repr

/-- A decoded bus access, with `sel` the read or the write of a register. -/
def decodeAccess (base a : Word) (sel : Reg → Instr) : Except Reject Instr :=
  if alignedAddr a = false then .error .misaligned
  else
    match busTarget base a with
    | .reg r => .ok (sel r)
    | .noDevice => .error .noDevice
    | .undefinedOffset => .error .undefinedOffset

/-- The decoder, with `CSR_BASE` at `base`: every input is an instruction or is rejected by name. -/
def decode (base : Word) : Input → Except Reject Instr
  | .packet bytes err =>
    match (classify bytes err).instr with
    | .ok i => .ok i
    | .error why => .error (.malformed why)
  | .csrRead a => decodeAccess base a Reg.readInstr
  | .csrWrite a v => decodeAccess base a (Reg.writeInstr v)

/-- The two bytes after the PID of a token or SOF: the 11 field bits with their CRC5 (30_encoding.md R113, R114). -/
def tokenTail (field : BitVec 11) : List Byte :=
  let w : BitVec 16 := crc5 field ++ field
  [w.extractLsb' 0 8, w.extractLsb' 8 8]

/-- A token packet (30_encoding.md R113). -/
def tokenBytes (pid : TokenPid) (addr : DevAddr) (ep : Ep) : List Byte :=
  (Pid.token pid).byte :: tokenTail (ep ++ addr)

/-- A start-of-frame packet (30_encoding.md R114). -/
def sofBytes (frame : BitVec 11) : List Byte := Pid.sof.byte :: tokenTail frame

/-- A data packet (30_encoding.md R115), its CRC16 low byte first (R119). -/
def dataBytes (pid : DataPid) (payload : List Byte) : List Byte :=
  (Pid.data pid).byte :: (payload ++ [(crc16 payload).extractLsb' 0 8, (crc16 payload).extractLsb' 8 8])

/-- A handshake packet (30_encoding.md R116). -/
def handshakeBytes (pid : HandshakePid) : List Byte := [(Pid.handshake pid).byte]

/-- A packet with a special PID: the PID byte and whatever follows it (40_link_layer.md R147). -/
def specialBytes (pid : SpecialPid) (rest : List Byte) : List Byte := (Pid.special pid).byte :: rest

/-- The encoder, with `CSR_BASE` at `base`: the bytes of a packet, or the address (and value) of an access (30_encoding.md
R113 to R116, R123). -/
def encode (base : Word) : Instr → Input
  | .pidOut addr ep => .packet (tokenBytes .out addr ep) false
  | .pidIn addr ep => .packet (tokenBytes .inn addr ep) false
  | .pidSof frame => .packet (sofBytes frame) false
  | .pidSetup addr ep => .packet (tokenBytes .setup addr ep) false
  | .pidData0 payload => .packet (dataBytes .data0 payload) false
  | .pidData1 payload => .packet (dataBytes .data1 payload) false
  | .pidData2 payload => .packet (dataBytes .data2 payload) false
  | .pidMdata payload => .packet (dataBytes .mdata payload) false
  | .pidAck => .packet (handshakeBytes .ack) false
  | .pidNak => .packet (handshakeBytes .nak) false
  | .pidStall => .packet (handshakeBytes .stall) false
  | .pidNyet => .packet (handshakeBytes .nyet) false
  | .pidPreErr rest => .packet (specialBytes .preErr rest) false
  | .pidSplit rest => .packet (specialBytes .split rest) false
  | .pidPing rest => .packet (specialBytes .ping rest) false
  | .pidReserved rest => .packet (specialBytes .reserved rest) false
  | .rDcEvPending => .csrRead (Reg.dcEvPending.busAddr base)
  | .wDcEvPending v => .csrWrite (Reg.dcEvPending.busAddr base) v
  | .rDcEvEnable => .csrRead (Reg.dcEvEnable.busAddr base)
  | .wDcEvEnable v => .csrWrite (Reg.dcEvEnable.busAddr base) v
  | .rDcEnable => .csrRead (Reg.dcEnable.busAddr base)
  | .wDcEnable v => .csrWrite (Reg.dcEnable.busAddr base) v
  | .rDcAddress => .csrRead (Reg.dcAddress.busAddr base)
  | .wDcAddress v => .csrWrite (Reg.dcAddress.busAddr base) v
  | .rDcSpeed => .csrRead (Reg.dcSpeed.busAddr base)
  | .wDcSpeed v => .csrWrite (Reg.dcSpeed.busAddr base) v
  | .rDcStatus => .csrRead (Reg.dcStatus.busAddr base)
  | .wDcStatus v => .csrWrite (Reg.dcStatus.busAddr base) v
  | .rDcCtrl => .csrRead (Reg.dcCtrl.busAddr base)
  | .wDcCtrl v => .csrWrite (Reg.dcCtrl.busAddr base) v
  | .rDcConfigured => .csrRead (Reg.dcConfigured.busAddr base)
  | .wDcConfigured v => .csrWrite (Reg.dcConfigured.busAddr base) v
  | .rSetupEvPending => .csrRead (Reg.setupEvPending.busAddr base)
  | .wSetupEvPending v => .csrWrite (Reg.setupEvPending.busAddr base) v
  | .rSetupEvEnable => .csrRead (Reg.setupEvEnable.busAddr base)
  | .wSetupEvEnable v => .csrWrite (Reg.setupEvEnable.busAddr base) v
  | .rSetupData0 => .csrRead (Reg.setupData0.busAddr base)
  | .wSetupData0 v => .csrWrite (Reg.setupData0.busAddr base) v
  | .rSetupData1 => .csrRead (Reg.setupData1.busAddr base)
  | .wSetupData1 v => .csrWrite (Reg.setupData1.busAddr base) v
  | .rSetupData2 => .csrRead (Reg.setupData2.busAddr base)
  | .wSetupData2 v => .csrWrite (Reg.setupData2.busAddr base) v
  | .rSetupData3 => .csrRead (Reg.setupData3.busAddr base)
  | .wSetupData3 v => .csrWrite (Reg.setupData3.busAddr base) v
  | .rSetupData4 => .csrRead (Reg.setupData4.busAddr base)
  | .wSetupData4 v => .csrWrite (Reg.setupData4.busAddr base) v
  | .rSetupData5 => .csrRead (Reg.setupData5.busAddr base)
  | .wSetupData5 v => .csrWrite (Reg.setupData5.busAddr base) v
  | .rSetupData6 => .csrRead (Reg.setupData6.busAddr base)
  | .wSetupData6 v => .csrWrite (Reg.setupData6.busAddr base) v
  | .rSetupData7 => .csrRead (Reg.setupData7.busAddr base)
  | .wSetupData7 v => .csrWrite (Reg.setupData7.busAddr base) v
  | .rSetupStatus => .csrRead (Reg.setupStatus.busAddr base)
  | .wSetupStatus v => .csrWrite (Reg.setupStatus.busAddr base) v
  | .rSetupAck => .csrRead (Reg.setupAck.busAddr base)
  | .wSetupAck v => .csrWrite (Reg.setupAck.busAddr base) v
  | .rInEvPending => .csrRead (Reg.inEvPending.busAddr base)
  | .wInEvPending v => .csrWrite (Reg.inEvPending.busAddr base) v
  | .rInEvEnable => .csrRead (Reg.inEvEnable.busAddr base)
  | .wInEvEnable v => .csrWrite (Reg.inEvEnable.busAddr base) v
  | .rInData => .csrRead (Reg.inData.busAddr base)
  | .wInData v => .csrWrite (Reg.inData.busAddr base) v
  | .rInEpno => .csrRead (Reg.inEpno.busAddr base)
  | .wInEpno v => .csrWrite (Reg.inEpno.busAddr base) v
  | .rInReady => .csrRead (Reg.inReady.busAddr base)
  | .wInReady v => .csrWrite (Reg.inReady.busAddr base) v
  | .rInStall => .csrRead (Reg.inStall.busAddr base)
  | .wInStall v => .csrWrite (Reg.inStall.busAddr base) v
  | .rInEpEnable => .csrRead (Reg.inEpEnable.busAddr base)
  | .wInEpEnable v => .csrWrite (Reg.inEpEnable.busAddr base) v
  | .rInStatus => .csrRead (Reg.inStatus.busAddr base)
  | .wInStatus v => .csrWrite (Reg.inStatus.busAddr base) v
  | .rInCtrl => .csrRead (Reg.inCtrl.busAddr base)
  | .wInCtrl v => .csrWrite (Reg.inCtrl.busAddr base) v
  | .rOutEvPending => .csrRead (Reg.outEvPending.busAddr base)
  | .wOutEvPending v => .csrWrite (Reg.outEvPending.busAddr base) v
  | .rOutEvEnable => .csrRead (Reg.outEvEnable.busAddr base)
  | .wOutEvEnable v => .csrWrite (Reg.outEvEnable.busAddr base) v
  | .rOutData => .csrRead (Reg.outData.busAddr base)
  | .wOutData v => .csrWrite (Reg.outData.busAddr base) v
  | .rOutEpno => .csrRead (Reg.outEpno.busAddr base)
  | .wOutEpno v => .csrWrite (Reg.outEpno.busAddr base) v
  | .rOutAck => .csrRead (Reg.outAck.busAddr base)
  | .wOutAck v => .csrWrite (Reg.outAck.busAddr base) v
  | .rOutStall => .csrRead (Reg.outStall.busAddr base)
  | .wOutStall v => .csrWrite (Reg.outStall.busAddr base) v
  | .rOutEpEnable => .csrRead (Reg.outEpEnable.busAddr base)
  | .wOutEpEnable v => .csrWrite (Reg.outEpEnable.busAddr base) v
  | .rOutStatus => .csrRead (Reg.outStatus.busAddr base)
  | .wOutStatus v => .csrWrite (Reg.outStatus.busAddr base) v
  | .rOutCtrl => .csrRead (Reg.outCtrl.busAddr base)
  | .wOutCtrl v => .csrWrite (Reg.outCtrl.busAddr base) v

/-- The instruction has an encoding: it is a packet, or its register's address fits 32 bits. With `CSR_BASE` above 0xFFFFC000
the registers that would stand beyond the address space have no address, and no access reaches them: below `CSR_BASE` the
target is `NONE` (20_memory.md R82). -/
def Instr.encodable (base : Word) (i : Instr) : Bool :=
  match encode base i with
  | .packet _ _ => true
  | .csrRead a => base.toNat ≤ a.toNat
  | .csrWrite a _ => base.toNat ≤ a.toNat

/-! ### Words numbered as opcode_table.json numbers them (log 5) -/

/-- The operand and check bytes that follow a PID byte when every operand is zero: the field of zeros with its CRC5 for
a token or SOF (30_encoding.md R113, R114), the CRC16 of no payload for a data PID (R115), nothing otherwise. -/
def zeroTail : Pid → List Byte
  | .token _ => tokenTail 0
  | .sof => tokenTail 0
  | .data _ => [0, 0]
  | .handshake _ => []
  | .special _ => []

/-- `n` bytes of `w`, the least significant first. -/
def leBytes : Nat → Nat → List Byte
  | 0, _ => []
  | n + 1, w => BitVec.ofNat 8 w :: leBytes n (w / 256)

/-- The input an opcode-table word stands for. Up to 31 bits it is a packet, byte 0 first; a PID byte alone is followed by
operands of zero. From 32 bits on it is an access at its bits [31:0], with `CSR_BASE` = 0 (log 4): a read if that is all, a
write of its bits [63:32] if there are more. -/
def tableInput (nbits w : Nat) : Input :=
  if nbits ≤ 8 then
    let b0 : Byte := BitVec.ofNat 8 w
    .packet (b0 :: zeroTail (Pid.ofNibble (b0.extractLsb' 0 4))) false
  else if nbits < 32 then .packet (leBytes (nbits / 8) w) false
  else if nbits = 32 then .csrRead (BitVec.ofNat 32 w)
  else .csrWrite (BitVec.ofNat 32 w) (BitVec.ofNat 32 (w / 4294967296))

/-- The instruction the decoder reads from an opcode-table word. -/
def decodeTableWord (nbits w : Nat) : Option Instr :=
  match decode 0 (tableInput nbits w) with
  | .ok i => some i
  | .error _ => none

end Sys2Proof
end

