-- ==== Sys2Proof/Machine/State.lean ====
section
/-! DEFINITION. The state of the core (10_state.md) as plain data, its reset value (R61), and the reasons a step can stop. -/

namespace Sys2Proof.Machine

open Sys2Proof

/-- The transaction state `xact` (10_state.md R42). -/
inductive Xact where
  | idle
  | setupData (ep : Ep)
  | outData (ep : Ep)
  | inHandshake (ep : Ep) (n : Nat)
  deriving DecidableEq, Repr

/-- Eight named bytes: the payload of a SETUP (10_state.md R45). -/
structure SetupBytes where
  d0 : Byte
  d1 : Byte
  d2 : Byte
  d3 : Byte
  d4 : Byte
  d5 : Byte
  d6 : Byte
  d7 : Byte
  deriving DecidableEq, Repr

/-- One register of bits per interrupt line, each as wide as the line's bit set (10_state.md R44, R60). -/
structure LineBits where
  dc : BitVec 2
  setup : BitVec 1
  inEp : BitVec 2
  outEp : BitVec 2
  deriving DecidableEq, Repr

/-- The messages of `s2u` (10_state.md R50). -/
inductive S2UMsg where
  | enable (v : Bool)
  | address (a : DevAddr)
  | configured (v : Bool)
  | softReset
  | inPush (b : Byte)
  | inReady (ep : Ep)
  | inStall (m : Mask)
  | inEn (m : Mask)
  | inFifoReset
  | outAck
  | outStall (m : Mask)
  | outEn (m : Mask)
  deriving DecidableEq, Repr

/-- The kind of a core clear (41_device_controller.md R171). -/
inductive ResetKind where
  | bus
  | soft
  deriving DecidableEq, Repr

/-- The messages of `u2s` (10_state.md R51). -/
inductive U2SMsg where
  | devState (s : DevState) (a : DevAddr) (sp : Speed)
  | line (ls : LineState)
  | reset (kind : ResetKind)
  | speed
  | setup (ep : Ep) (d : SetupBytes) (sc : Bool)
  | inStatus (ready : Mask) (level : BitVec 7) (overflow : Bool)
  | inDone (ep : Ep)
  | inStalled (ep : Ep)
  | outData (ep : Ep) (d : List Byte)
  | outStalled (ep : Ep)
  deriving DecidableEq, Repr

/-- The USB-domain state (10_state.md R32 to R42). The per-endpoint toggles, stalls and enables are masks, bit n for
endpoint n. -/
structure Usb where
  devState : DevState
  address : DevAddr
  speed : Speed
  toggleIn : Mask
  toggleOut : Mask
  inStall : Mask
  outStall : Mask
  inEn : Mask
  outEn : Mask
  inFifo : List Byte
  inReady : Mask
  inOverflow : Bool
  outAvail : Bool
  xact : Xact
  deriving DecidableEq, Repr

/-- The system-domain state (10_state.md R44 to R48). -/
structure Sys where
  pending : LineBits
  enable : LineBits
  setupData : SetupBytes
  setupReady : Bool
  setupOverwritten : Bool
  setupEpno : Ep
  mState : DevState
  mAddress : DevAddr
  mSpeed : Speed
  mLine : LineState
  inEpnoReg : Ep
  inStallReg : Mask
  inEnReg : Mask
  inLastEpno : Ep
  mInReady : Mask
  mInLevel : BitVec 7
  mInOverflow : Bool
  outFifo : List Byte
  outAvailSys : Bool
  outEpno : Ep
  outStallReg : Mask
  outEnReg : Mask
  outStallEpno : Ep
  deriving DecidableEq, Repr

/-- The whole state. `usb`, `sys`, `s2u` and `u2s` are the three parts of 10_state.md R20. `lineState` is the PHY's input
(R43). `txLog` and `readLog` are what an observer has seen so far, oldest first: the packets sent and the values read (R28;
log 6). The last three fields are the model's own: `cfg`, the parameters of the run, never written (R29; log 3); `agenda`,
the agents' next steps (R21; log 1); `draws`, how many steps have been drawn from `Config.draw` (log 1). -/
structure State where
  usb : Usb
  sys : Sys
  s2u : List S2UMsg
  u2s : List U2SMsg
  lineState : LineState
  txLog : List (List Byte)
  readLog : List Word
  cfg : Config
  agenda : List Action
  draws : Nat
  deriving DecidableEq, Repr

/-- No step of the core faults (60_exceptions.md R295, R310: "*Fault*: none"), so there is no reason for one. -/
inductive Fault where
  deriving DecidableEq, Repr

/-- Why a step is refused. -/
inductive Refusal where
  /-- Raised by `exec` for an instruction that has no meaning yet. Safe: the run stops. -/
  | notModelled (mnemonic : String)
  /-- Raised by an access whose address is not a multiple of 4: "A model refuses such an access (no step for `FW`)"
  (20_memory.md R88). Safe: the run stops (log 11). -/
  | misaligned
  deriving DecidableEq, Repr

/-- Eight bytes of 0 (10_state.md R61). -/
def SetupBytes.zero : SetupBytes := ⟨0, 0, 0, 0, 0, 0, 0, 0⟩

/-- No bit of any line (10_state.md R61). -/
def LineBits.zero : LineBits := ⟨0, 0, 0, 0⟩

/-- The USB-domain rows of 10_state.md R61. -/
def Usb.reset : Usb where
  devState := .detached
  address := 0
  speed := .none
  toggleIn := 0
  toggleOut := 0
  inStall := 0
  outStall := 0
  inEn := 0x0001
  outEn := 0x0001
  inFifo := []
  inReady := 0
  inOverflow := false
  outAvail := false
  xact := .idle

/-- The system-domain rows of 10_state.md R61. -/
def Sys.reset : Sys where
  pending := LineBits.zero
  enable := LineBits.zero
  setupData := SetupBytes.zero
  setupReady := false
  setupOverwritten := false
  setupEpno := 0
  mState := .detached
  mAddress := 0
  mSpeed := .none
  mLine := .se0
  inEpnoReg := 0
  inStallReg := 0
  inEnReg := 0x0001
  inLastEpno := 0
  mInReady := 0
  mInLevel := 0
  mInOverflow := false
  outFifo := []
  outAvailSys := false
  outEpno := 0
  outStallReg := 0
  outEnReg := 0x0001
  outStallEpno := 0

/-- The machine right after power-on reset (10_state.md R61; 70_reset_and_hazards.md R320, R321). The line shows whatever it
shows (R43; log 7); nothing has been sent or read (log 6); the parameters are those of the machine (log 3); no step is
placed (log 1). -/
def State.reset : State where
  usb := Usb.reset
  sys := Sys.reset
  s2u := []
  u2s := []
  lineState := Config.lineAtReset
  txLog := []
  readLog := []
  cfg := Config.machine
  agenda := []
  draws := 0

end Sys2Proof.Machine
end

