-- ==== Sys2Proof/Machine/Ops.lean ====
section
/-! DEFINITION. The shared operations: the channels, transmission and read results of 00_scope.md R10, and the completions
of inputs that are no instruction. The core takes no exception and returns from none (60_exceptions.md R295, R301, R302):
what stands in for it, raising a pending bit, is in Flags.lean. -/

namespace Sys2Proof.Machine

open Sys2Proof

/-- The answer of a step: every step of an instruction has one outcome, the next state. -/
abbrev Out := Host.Outcome State Fault Refusal

/-- `send_S2U(m)`: append at the tail of `s2u` (20_memory.md R92). -/
def State.sendS2U (m : S2UMsg) (s : State) : State := { s with s2u := s.s2u ++ [m] }

/-- `send_U2S(m)`: append at the tail of `u2s` (20_memory.md R92). -/
def State.sendU2S (m : U2SMsg) (s : State) : State := { s with u2s := s.u2s ++ [m] }

/-- `tx(p)`: the packet `p` goes to the PHY (40_link_layer.md R151). -/
def State.tx (p : List Byte) (s : State) : State := { s with txLog := s.txLog ++ [p] }

/-- The value a `CsrRead` returns (00_scope.md R10). -/
def State.returnRead (v : Word) (s : State) : State := { s with readLog := s.readLog ++ [v] }

/-- A change of the USB-domain state only. -/
def State.modUsb (f : Usb → Usb) (s : State) : State := { s with usb := f s.usb }

/-- A change of the system-domain state only. -/
def State.modSys (f : Sys → Sys) (s : State) : State := { s with sys := f s.sys }

/-- `xact <- x` (10_state.md R42). -/
def State.setXact (x : Xact) (s : State) : State := s.modUsb fun u => { u with xact := x }

/-- What happens with an input that is no instruction. A malformed packet is dropped with no effect (40_link_layer.md
R148). An access outside the windows or at an undefined offset completes: a read returns 0, a write changes nothing
(20_memory.md R83, R84). A misaligned access is refused (R88). -/
def rejectInput (x : Input) (r : Reject) (s : State) : Out :=
  match r with
  | .malformed _ => .next s
  | .misaligned => .refused .misaligned
  | .noDevice | .undefinedOffset =>
    match x with
    | .csrRead _ => .next (s.returnRead 0)
    | .csrWrite _ _ => .next s
    | .packet _ _ => .next s

/-- The release of power-on reset: every piece of state at its value of 10_state.md R61 in one step, both domains and both
channels together (70_reset_and_hazards.md R320). The line, the parameters, what has been observed and the agenda are no
state of the core (log 10). -/
def powerOn (s : State) : State := { s with usb := Usb.reset, sys := Sys.reset, s2u := [], u2s := [] }

/-- The agent step to take now and the state it is taken from: the head of the agenda, or a free value where the agenda is
empty (10_state.md R21; log 1). -/
def State.fetch (s : State) : Action × State :=
  match s.agenda with
  | a :: rest => (a, { s with agenda := rest })
  | [] => (Config.draw s.draws, { s with draws := s.draws + 1 })

end Sys2Proof.Machine
end

