-- ==== Sys2Proof/Machine/Operands.lean ====
section
/-! DEFINITION. Operands: the fields of a written value (30_encoding.md R124; 20_memory.md R85, R91), the assembly of a
value read (R124), and endpoint masks (00_scope.md R11). -/

namespace Sys2Proof.Machine

open Sys2Proof

/-- `v[0]`: a one-bit field or strobe (30_encoding.md R124). -/
def bitField (v : Word) : Bool := v.getLsbD 0

/-- `v[6:0]` (30_encoding.md R124). -/
def addressField (v : Word) : DevAddr := v.extractLsb' 0 7

/-- `v[3:0]` (30_encoding.md R124). -/
def epField (v : Word) : Ep := v.extractLsb' 0 4

/-- `v[7:0]`: a byte port (30_encoding.md R124; 20_memory.md R91). -/
def byteField (v : Word) : Byte := v.extractLsb' 0 8

/-- `v[15:0]`: a per-endpoint mask (30_encoding.md R124). -/
def maskField (v : Word) : Mask := v.extractLsb' 0 16

/-- A field of a value read: `x` with its bit 0 at bit `at` of the word, 0 elsewhere (30_encoding.md R124). -/
def place {w : Nat} (lo : Nat) (x : BitVec w) : Word := x.setWidth 32 <<< lo

/-- A one-bit field of a value read. -/
def placeBit (lo : Nat) (b : Bool) : Word := place lo (BitVec.ofBool b)

/-- `m[n]` (00_scope.md R11). -/
def testEp (m : Mask) (n : Ep) : Bool := m.getLsbD n.toNat

/-- `set(m, n)` (00_scope.md R11). -/
def setEp (m : Mask) (n : Ep) : Mask := m ||| (1#16 <<< n.toNat)

/-- `clr(m, n)` (00_scope.md R11). -/
def clearEp (m : Mask) (n : Ep) : Mask := m &&& ~~~(1#16 <<< n.toNat)

/-- `m` with bit `n` flipped (00_scope.md R13 (a)). -/
def flipEp (m : Mask) (n : Ep) : Mask := m ^^^ (1#16 <<< n.toNat)

/-- The encoding of the device state in `DC.STATUS.STATE` (10_state.md R32). -/
def stateCode : DevState → BitVec 3
  | .detached => 0
  | .powered => 1
  | .default => 2
  | .addressed => 3
  | .configured => 4

/-- The encoding of the speed in `DC.SPEED` (10_state.md R34). -/
def speedCode : Speed → BitVec 2
  | .none => 0
  | .full => 1

/-- The encoding of the line state in `DC.STATUS.LINE_STATE` (10_state.md R43). -/
def lineCode : LineState → BitVec 2
  | .se0 => 0
  | .j => 1
  | .k => 2
  | .se1 => 3

/-- The number of bytes in a FIFO as a 7-bit LEVEL field (10_state.md R47, R58, R59; log 13). -/
def levelOf (fifo : List Byte) : BitVec 7 := BitVec.ofNat 7 fifo.length

/-- Eight payload bytes in wire order, or none if there are not exactly `SETUP_LEN` = 8 of them (42_setup.md R201, R202). -/
def SetupBytes.ofPayload : List Byte → Option SetupBytes
  | [b0, b1, b2, b3, b4, b5, b6, b7] => some ⟨b0, b1, b2, b3, b4, b5, b6, b7⟩
  | _ => none

end Sys2Proof.Machine
end

