-- ==== Sys2Proof/Machine/Flags.lean ====
section
/-! DEFINITION. The event flags: pending and enable bits and the interrupt outputs (45_event_aggregator.md; 10_state.md
R52, R60). -/

namespace Sys2Proof.Machine

open Sys2Proof

/-- The bits of one line, zero-extended to a word (45_event_aggregator.md R282, R284). -/
def LineBits.read (r : LineBits) : Line → Word
  | .dc => place 0 r.dc
  | .setup => place 0 r.setup
  | .inEp => place 0 r.inEp
  | .outEp => place 0 r.outEp

/-- `pending[L] <- pending[L] AND NOT (v AND VM[L])` (45_event_aggregator.md R283). Taking as many bits of `v` as the line
has is the `AND VM[L]` of R280. -/
def LineBits.clear (r : LineBits) (v : Word) : Line → LineBits
  | .dc => { r with dc := r.dc &&& ~~~(v.extractLsb' 0 2) }
  | .setup => { r with setup := r.setup &&& ~~~(v.extractLsb' 0 1) }
  | .inEp => { r with inEp := r.inEp &&& ~~~(v.extractLsb' 0 2) }
  | .outEp => { r with outEp := r.outEp &&& ~~~(v.extractLsb' 0 2) }

/-- `enable[L] <- v AND VM[L]` (45_event_aggregator.md R285). -/
def LineBits.assign (r : LineBits) (v : Word) : Line → LineBits
  | .dc => { r with dc := v.extractLsb' 0 2 }
  | .setup => { r with setup := v.extractLsb' 0 1 }
  | .inEp => { r with inEp := v.extractLsb' 0 2 }
  | .outEp => { r with outEp := v.extractLsb' 0 2 }

/-- The event causes, one pending bit each (10_state.md R60; 60_exceptions.md R297). -/
inductive Cause where
  | dcReset
  | dcSpeed
  | setup
  | inDone
  | inStalled
  | outData
  | outStalled
  deriving DecidableEq, Repr

/-- Set the pending bit of a cause (10_state.md R60; 45_event_aggregator.md R281). -/
def LineBits.raise (r : LineBits) : Cause → LineBits
  | .dcReset => { r with dc := r.dc ||| 0b01 }
  | .dcSpeed => { r with dc := r.dc ||| 0b10 }
  | .setup => { r with setup := r.setup ||| 0b1 }
  | .inDone => { r with inEp := r.inEp ||| 0b01 }
  | .inStalled => { r with inEp := r.inEp ||| 0b10 }
  | .outData => { r with outEp := r.outEp ||| 0b01 }
  | .outStalled => { r with outEp := r.outEp ||| 0b10 }

/-- The clear of `pending[SETUP]`, `pending[IN]` and `pending[OUT]` at an `E_RESET` (41_device_controller.md R184). -/
def LineBits.clearEndpointLines (r : LineBits) : LineBits := { r with setup := 0, inEp := 0, outEp := 0 }

/-- `irq[L] = ((pending[L] AND enable[L]) != 0)` (10_state.md R52; 45_event_aggregator.md R286). -/
def State.irq (s : State) (l : Line) : Bool := (s.sys.pending.read l &&& s.sys.enable.read l) != 0

/-- The CPU interrupt input a line drives (60_exceptions.md R298). -/
def IrqMap.input (m : IrqMap) : Line → Nat
  | .dc => m.dc
  | .setup => m.setup
  | .inEp => m.inEp
  | .outEp => m.outEp

/-- The level of CPU interrupt input `n` as far as the core drives it: some line mapped to it by `IRQ_MAP` is asserted.
60_exceptions.md R298 makes the routing the parameter `IRQ_MAP` and leaves to the SoC how lines that share an input combine.
DESIGN CHOICE: the OR of the four levels, unsafe (log 15). No step depends on it. -/
def State.cpuIrq (s : State) (n : Nat) : Bool :=
  [Line.dc, Line.setup, Line.inEp, Line.outEp].any fun l => IrqMap.input s.cfg.irqMap l == n && s.irq l

end Sys2Proof.Machine
end

