-- ==== Sys2Proof/Machine/DeviceController.lean ====
section
/-! DEFINITION. The device controller (41_device_controller.md): core clear, bus reset, the S2U messages it applies, the
U2S messages it has delivered, and the accesses of window 0. -/

namespace Sys2Proof.Machine

open Sys2Proof

/-! ### USB domain -/

/-- The assignments of the core clear `CC` (41_device_controller.md R171). -/
def Usb.cleared (u : Usb) : Usb :=
  { u with
    address := 0
    toggleIn := 0
    toggleOut := 0
    inStall := 0
    outStall := 0
    inEn := 0x0001
    outEn := 0x0001
    inFifo := []
    inReady := 0
    inOverflow := false
    outAvail := false
    xact := .idle }

/-- `CC(kind)` (41_device_controller.md R171). -/
def coreClear (kind : ResetKind) (s : State) : State :=
  ((s.modUsb Usb.cleared).sendU2S (.reset kind)).sendU2S (.inStatus 0 0 false)

/-- `send_U2S(E_DEVSTATE(dev_state, address, speed))` with the values in force. -/
def sendDevState (s : State) : State := s.sendU2S (.devState s.usb.devState s.usb.address s.usb.speed)

/-- The `bus_reset` event (41_device_controller.md R172 to R175). -/
def busReset (s : State) : State :=
  if s.usb.devState = .detached then s
  else
    let old := s.usb.speed
    let s := coreClear .bus s
    let s := s.modUsb fun u => { u with devState := .default, speed := .full }
    let s := sendDevState s
    let s := if old ≠ .full then s.sendU2S .speed else s
    if s.cfg.s2uFlushOnReset then { s with s2u := [] } else s

/-- A line-state change (41_device_controller.md R181). Presenting the state the line already shows is no change (log 7). -/
def lineChange (ls : LineState) (s : State) : State :=
  if ls = s.lineState then s else { s with lineState := ls }.sendU2S (.line ls)

/-- `M_ENABLE(v)` (41_device_controller.md R176, R177). -/
def applyEnable (v : Bool) (s : State) : State :=
  if v then
    if s.usb.devState = .detached then sendDevState (s.modUsb fun u => { u with devState := .powered }) else s
  else if s.usb.devState = .detached then s
  else
    let s := coreClear .soft s
    sendDevState (s.modUsb fun u => { u with devState := .detached, speed := .none })

/-- `M_ADDRESS(a)` (41_device_controller.md R178). -/
def applyAddress (a : DevAddr) (s : State) : State :=
  match s.usb.devState with
  | .detached => s
  | .powered => s
  | .default =>
    sendDevState (if a ≠ 0 then s.modUsb fun u => { u with address := a, devState := .addressed } else s)
  | .addressed =>
    sendDevState
      (if a ≠ 0 then s.modUsb fun u => { u with address := a }
       else s.modUsb fun u => { u with address := 0, devState := .default })
  | .configured =>
    sendDevState
      (if a ≠ 0 then s.modUsb fun u => { u with address := a }
       else s.modUsb fun u => { u with address := 0, devState := .default })

/-- `M_CONFIGURED(v)` (41_device_controller.md R179). -/
def applyConfigured (v : Bool) (s : State) : State :=
  match s.usb.devState, v with
  | .addressed, true => sendDevState (s.modUsb fun u => { u with devState := .configured })
  | .configured, false => sendDevState (s.modUsb fun u => { u with devState := .addressed })
  | _, _ => s

/-- `M_SOFT_RESET` (41_device_controller.md R180). -/
def applySoftReset (s : State) : State :=
  if s.usb.devState = .detached then s
  else
    let s := coreClear .soft s
    let s := if s.usb.devState ≠ .powered then s.modUsb fun u => { u with devState := .default } else s
    sendDevState s

/-! ### System domain -/

/-- `E_DEVSTATE(s, a, sp)` (41_device_controller.md R182). -/
def Sys.takeDevState (st : DevState) (a : DevAddr) (sp : Speed) (y : Sys) : Sys :=
  { y with mState := st, mAddress := a, mSpeed := sp }

/-- `E_LINE(ls)` (41_device_controller.md R183). -/
def Sys.takeLine (ls : LineState) (y : Sys) : Sys := { y with mLine := ls }

/-- `E_RESET(kind)` (41_device_controller.md R184). -/
def Sys.takeReset (kind : ResetKind) (y : Sys) : Sys :=
  let pending := y.pending.clearEndpointLines
  { y with
    setupData := SetupBytes.zero
    setupReady := false
    setupOverwritten := false
    setupEpno := 0
    pending := match kind with
      | .bus => pending.raise .dcReset
      | .soft => pending
    inEpnoReg := 0
    inStallReg := 0
    inEnReg := 0x0001
    inLastEpno := 0
    outFifo := []
    outAvailSys := false
    outEpno := 0
    outStallReg := 0
    outEnReg := 0x0001
    outStallEpno := 0 }

/-- `E_SPEED` (41_device_controller.md R185). -/
def Sys.takeSpeed (y : Sys) : Sys := { y with pending := y.pending.raise .dcSpeed }

/-! ### Window 0 -/

/-- Write `DC.ENABLE` (41_device_controller.md R186). -/
def execWDcEnable (v : Word) (s : State) : Out := .next (s.sendS2U (.enable (bitField v)))

/-- Read `DC.ENABLE`: 0 (41_device_controller.md R187). -/
def execRDcEnable (s : State) : Out := .next (s.returnRead 0)

/-- Write `DC.ADDRESS` (41_device_controller.md R188). -/
def execWDcAddress (v : Word) (s : State) : Out := .next (s.sendS2U (.address (addressField v)))

/-- Read `DC.ADDRESS` (41_device_controller.md R189). -/
def execRDcAddress (s : State) : Out := .next (s.returnRead (place 0 s.sys.mAddress))

/-- Read `DC.SPEED` (41_device_controller.md R190). -/
def execRDcSpeed (s : State) : Out := .next (s.returnRead (place 0 (speedCode s.sys.mSpeed)))

/-- Write `DC.SPEED`: ignored (41_device_controller.md R191). -/
def execWDcSpeed (_v : Word) (s : State) : Out := .next s

/-- Read `DC.STATUS` (41_device_controller.md R192). -/
def execRDcStatus (s : State) : Out :=
  .next (s.returnRead (place 0 (stateCode s.sys.mState) ||| place 4 (lineCode s.sys.mLine)))

/-- Write `DC.STATUS`: ignored (41_device_controller.md R193). -/
def execWDcStatus (_v : Word) (s : State) : Out := .next s

/-- Write `DC.CTRL` (41_device_controller.md R194). -/
def execWDcCtrl (v : Word) (s : State) : Out := .next (if bitField v then s.sendS2U .softReset else s)

/-- Read `DC.CTRL`: 0 (41_device_controller.md R195). -/
def execRDcCtrl (s : State) : Out := .next (s.returnRead 0)

/-- Write `DC.CONFIGURED` (41_device_controller.md R196). -/
def execWDcConfigured (v : Word) (s : State) : Out := .next (s.sendS2U (.configured (bitField v)))

/-- Read `DC.CONFIGURED` (41_device_controller.md R197). -/
def execRDcConfigured (s : State) : Out := .next (s.returnRead (if s.sys.mState = .configured then 1 else 0))

end Sys2Proof.Machine
end

