-- ==== Sys2Proof/Machine/InEndpoint.lean ====
section
/-! DEFINITION. The IN endpoint interface (43_in_endpoint.md): the answer to an IN token, the commit on ACK, its messages in
both directions, and the accesses of window 2. -/

namespace Sys2Proof.Machine

open Sys2Proof

/-! ### USB domain -/

/-- `send_U2S(E_IN_STATUS(in_ready, len(in_fifo), in_overflow))` with the values in force (43_in_endpoint.md R225, R232). -/
def sendInStatus (s : State) : State :=
  s.sendU2S (.inStatus s.usb.inReady (levelOf s.usb.inFifo) s.usb.inOverflow)

/-- The DATA PID of a toggle: DATA0 for 0, DATA1 for 1 (10_state.md R35). -/
def togglePid (t : Bool) : DataPid := if t then .data1 else .data0

/-- An accepted IN token (43_in_endpoint.md R220 to R224). -/
def inToken (ep : Ep) (s : State) : State :=
  if testEp s.usb.inEn ep = false then s
  else if testEp s.usb.inStall ep then (s.tx (handshakeBytes .stall)).sendU2S (.inStalled ep)
  else if testEp s.usb.inReady ep then
    (s.tx (dataBytes (togglePid (testEp s.usb.toggleIn ep)) s.usb.inFifo)).setXact
      (.inHandshake ep s.usb.inFifo.length)
  else s.tx (handshakeBytes .nak)

/-- The host's ACK in `InHandshake(ep, n)` (43_in_endpoint.md R225). -/
def inCommit (ep : Ep) (n : Nat) (s : State) : State :=
  let s := s.modUsb fun u =>
    { u with
      inFifo := u.inFifo.drop n
      inReady := clearEp u.inReady ep
      toggleIn := flipEp u.toggleIn ep
      xact := .idle }
  sendInStatus (s.sendU2S (.inDone ep))

/-- `M_IN_PUSH(b)` (43_in_endpoint.md R227, R232). -/
def applyInPush (b : Byte) (s : State) : State :=
  sendInStatus (s.modUsb fun u =>
    if u.inFifo.length < s.cfg.inDepth then { u with inFifo := u.inFifo ++ [b] } else { u with inOverflow := true })

/-- `M_IN_READY(ep)` (43_in_endpoint.md R228, R232). -/
def applyInReady (ep : Ep) (s : State) : State :=
  sendInStatus (s.modUsb fun u => { u with inReady := setEp u.inReady ep })

/-- `M_IN_STALL(m)` (43_in_endpoint.md R229, R232). -/
def applyInStall (m : Mask) (s : State) : State := sendInStatus (s.modUsb fun u => { u with inStall := m })

/-- `M_IN_EN(m)`: the toggles of the endpoints newly enabled return to DATA0 (43_in_endpoint.md R230, R232). -/
def applyInEn (m : Mask) (s : State) : State :=
  sendInStatus (s.modUsb fun u => { u with toggleIn := u.toggleIn &&& ~~~(m &&& ~~~u.inEn), inEn := m })

/-- An `InHandshake` closed, any other transaction as it is (43_in_endpoint.md R231). -/
def Xact.closeIn : Xact → Xact
  | .inHandshake _ _ => .idle
  | .idle => .idle
  | .setupData ep => .setupData ep
  | .outData ep => .outData ep

/-- `M_IN_FIFO_RESET` (43_in_endpoint.md R231, R232). -/
def applyInFifoReset (s : State) : State :=
  sendInStatus (s.modUsb fun u =>
    { u with inFifo := [], inReady := 0, inOverflow := false, xact := u.xact.closeIn })

/-! ### System domain -/

/-- `E_IN_STATUS(r, l, o)` (43_in_endpoint.md R233). -/
def Sys.takeInStatus (r : Mask) (l : BitVec 7) (o : Bool) (y : Sys) : Sys :=
  { y with mInReady := r, mInLevel := l, mInOverflow := o }

/-- `E_IN_DONE(ep)` (43_in_endpoint.md R234). -/
def Sys.takeInDone (ep : Ep) (y : Sys) : Sys :=
  { y with inLastEpno := ep, pending := y.pending.raise .inDone }

/-- `E_IN_STALLED(ep)` (43_in_endpoint.md R235). -/
def Sys.takeInStalled (ep : Ep) (y : Sys) : Sys :=
  { y with inLastEpno := ep, pending := y.pending.raise .inStalled }

/-! ### Window 2 -/

/-- Write `IN.DATA` (43_in_endpoint.md R236). -/
def execWInData (v : Word) (s : State) : Out := .next (s.sendS2U (.inPush (byteField v)))

/-- Read `IN.DATA`: 0 (43_in_endpoint.md R237). -/
def execRInData (s : State) : Out := .next (s.returnRead 0)

/-- Write `IN.EPNO` (43_in_endpoint.md R238). -/
def execWInEpno (v : Word) (s : State) : Out := .next (s.modSys fun y => { y with inEpnoReg := epField v })

/-- Read `IN.EPNO`: 0 (43_in_endpoint.md R239). -/
def execRInEpno (s : State) : Out := .next (s.returnRead 0)

/-- Write `IN.READY` (43_in_endpoint.md R240). -/
def execWInReady (v : Word) (s : State) : Out :=
  .next (if bitField v then s.sendS2U (.inReady s.sys.inEpnoReg) else s)

/-- Read `IN.READY`: 0 (43_in_endpoint.md R241). -/
def execRInReady (s : State) : Out := .next (s.returnRead 0)

/-- Write `IN.STALL`: a FIFO reset first if some bit is cleared, then the new mask (43_in_endpoint.md R242). -/
def execWInStall (v : Word) (s : State) : Out :=
  let new := maskField v
  let cleared := s.sys.inStallReg &&& ~~~new
  let s := s.modSys fun y => { y with inStallReg := new }
  let s := if cleared ≠ 0 then s.sendS2U .inFifoReset else s
  .next (s.sendS2U (.inStall new))

/-- Read `IN.STALL` (43_in_endpoint.md R243). -/
def execRInStall (s : State) : Out := .next (s.returnRead (place 0 s.sys.inStallReg))

/-- Write `IN.EP_ENABLE` (43_in_endpoint.md R244). -/
def execWInEpEnable (v : Word) (s : State) : Out :=
  .next ((s.modSys fun y => { y with inEnReg := maskField v }).sendS2U (.inEn (maskField v)))

/-- Read `IN.EP_ENABLE` (43_in_endpoint.md R245). -/
def execRInEpEnable (s : State) : Out := .next (s.returnRead (place 0 s.sys.inEnReg))

/-- Read `IN.STATUS` (43_in_endpoint.md R246). -/
def execRInStatus (s : State) : Out :=
  .next (s.returnRead
    (place 0 s.sys.mInReady ||| place 16 s.sys.mInLevel ||| placeBit 24 s.sys.mInOverflow
      ||| place 28 s.sys.inLastEpno))

/-- Write `IN.STATUS`: ignored (43_in_endpoint.md R247). -/
def execWInStatus (_v : Word) (s : State) : Out := .next s

/-- Write `IN.CTRL` (43_in_endpoint.md R248). -/
def execWInCtrl (v : Word) (s : State) : Out := .next (if bitField v then s.sendS2U .inFifoReset else s)

/-- Read `IN.CTRL`: 0 (43_in_endpoint.md R249). -/
def execRInCtrl (s : State) : Out := .next (s.returnRead 0)

end Sys2Proof.Machine
end

