-- ==== Sys2Proof/Machine/OutEndpoint.lean ====
section
/-! DEFINITION. The OUT endpoint interface (44_out_endpoint.md): the OUT transaction, its messages in both directions, the
FIFO clear, and the accesses of window 3. -/

namespace Sys2Proof.Machine

open Sys2Proof

/-! ### USB domain -/

/-- An accepted OUT token (44_out_endpoint.md R250). -/
def outToken (ep : Ep) (s : State) : State :=
  if testEp s.usb.outEn ep then s.setXact (.outData ep) else s

/-- A DATA0 (`t` false) or DATA1 (`t` true) packet in `OutData(ep)` (44_out_endpoint.md R251 to R256). -/
def outPacket (ep : Ep) (t : Bool) (payload : List Byte) (s : State) : State :=
  let s := s.setXact .idle
  if s.cfg.outDepth < payload.length then s
  else if testEp s.usb.outStall ep then (s.tx (handshakeBytes .stall)).sendU2S (.outStalled ep)
  else if s.usb.outAvail then s.tx (handshakeBytes .nak)
  else if t ≠ testEp s.usb.toggleOut ep then s.tx (handshakeBytes .ack)
  else
    let s := s.modUsb fun u => { u with outAvail := true, toggleOut := flipEp u.toggleOut ep }
    (s.sendU2S (.outData ep payload)).tx (handshakeBytes .ack)

/-- `M_OUT_ACK` (44_out_endpoint.md R257). -/
def applyOutAck (s : State) : State := s.modUsb fun u => { u with outAvail := false }

/-- `M_OUT_STALL(m)` (44_out_endpoint.md R258). -/
def applyOutStall (m : Mask) (s : State) : State := s.modUsb fun u => { u with outStall := m }

/-- `M_OUT_EN(m)`: the toggles of the endpoints newly enabled return to DATA0 (44_out_endpoint.md R259). -/
def applyOutEn (m : Mask) (s : State) : State :=
  s.modUsb fun u => { u with toggleOut := u.toggleOut &&& ~~~(m &&& ~~~u.outEn), outEn := m }

/-! ### System domain -/

/-- `E_OUT_DATA(ep, d)` (44_out_endpoint.md R260). -/
def Sys.takeOutData (ep : Ep) (d : List Byte) (y : Sys) : Sys :=
  { y with outFifo := d, outAvailSys := true, outEpno := ep, pending := y.pending.raise .outData }

/-- `E_OUT_STALLED(ep)` (44_out_endpoint.md R261). -/
def Sys.takeOutStalled (ep : Ep) (y : Sys) : Sys :=
  { y with outStallEpno := ep, pending := y.pending.raise .outStalled }

/-- `out_clear()` (44_out_endpoint.md R262). -/
def outClear (s : State) : State :=
  if s.sys.outAvailSys then
    (s.modSys fun y => { y with outFifo := [], outAvailSys := false }).sendS2U .outAck
  else s

/-! ### Window 3 -/

/-- Read `OUT.DATA`: the FIFO pop, 0 when empty (44_out_endpoint.md R263). -/
def execROutData (s : State) : Out :=
  match s.sys.outFifo with
  | [] => .next (s.returnRead 0)
  | b :: rest => .next ((s.modSys fun y => { y with outFifo := rest }).returnRead (place 0 b))

/-- Write `OUT.DATA`: ignored (44_out_endpoint.md R264). -/
def execWOutData (_v : Word) (s : State) : Out := .next s

/-- Read `OUT.EPNO` (44_out_endpoint.md R265). -/
def execROutEpno (s : State) : Out := .next (s.returnRead (place 0 s.sys.outEpno))

/-- Write `OUT.EPNO`: ignored (44_out_endpoint.md R266). -/
def execWOutEpno (_v : Word) (s : State) : Out := .next s

/-- Write `OUT.ACK` (44_out_endpoint.md R267). -/
def execWOutAck (v : Word) (s : State) : Out := .next (if bitField v then outClear s else s)

/-- Read `OUT.ACK`: 0 (44_out_endpoint.md R268). -/
def execROutAck (s : State) : Out := .next (s.returnRead 0)

/-- Write `OUT.STALL`: the FIFO clear first if some bit is cleared, then the new mask (44_out_endpoint.md R269). -/
def execWOutStall (v : Word) (s : State) : Out :=
  let new := maskField v
  let cleared := s.sys.outStallReg &&& ~~~new
  let s := s.modSys fun y => { y with outStallReg := new }
  let s := if cleared ≠ 0 then outClear s else s
  .next (s.sendS2U (.outStall new))

/-- Read `OUT.STALL` (44_out_endpoint.md R270). -/
def execROutStall (s : State) : Out := .next (s.returnRead (place 0 s.sys.outStallReg))

/-- Write `OUT.EP_ENABLE` (44_out_endpoint.md R271). -/
def execWOutEpEnable (v : Word) (s : State) : Out :=
  .next ((s.modSys fun y => { y with outEnReg := maskField v }).sendS2U (.outEn (maskField v)))

/-- Read `OUT.EP_ENABLE` (44_out_endpoint.md R272). -/
def execROutEpEnable (s : State) : Out := .next (s.returnRead (place 0 s.sys.outEnReg))

/-- Read `OUT.STATUS` (44_out_endpoint.md R273). -/
def execROutStatus (s : State) : Out :=
  .next (s.returnRead
    (placeBit 0 s.sys.outAvailSys ||| placeBit 1 (!s.sys.outFifo.isEmpty) ||| place 16 (levelOf s.sys.outFifo)
      ||| place 28 s.sys.outStallEpno))

/-- Write `OUT.STATUS`: ignored (44_out_endpoint.md R274). -/
def execWOutStatus (_v : Word) (s : State) : Out := .next s

/-- Write `OUT.CTRL` (44_out_endpoint.md R275). -/
def execWOutCtrl (v : Word) (s : State) : Out := .next (if bitField v then outClear s else s)

/-- Read `OUT.CTRL`: 0 (44_out_endpoint.md R276). -/
def execROutCtrl (s : State) : Out := .next (s.returnRead 0)

end Sys2Proof.Machine
end

