-- ==== Sys2Proof/Machine/Setup.lean ====
section
/-! DEFINITION. The setup interface (42_setup.md): the SETUP transaction, its delivery, and the accesses of window 1. -/

namespace Sys2Proof.Machine

open Sys2Proof

/-! ### USB domain -/

/-- An accepted SETUP token (42_setup.md R200). -/
def setupToken (ep : Ep) (s : State) : State :=
  if testEp s.usb.outEn ep then s.setXact (.setupData ep) else s

/-- A DATA0 or DATA1 packet in `SetupData(ep)` (42_setup.md R201 to R205). -/
def setupPacket (ep : Ep) (payload : List Byte) (s : State) : State :=
  match SetupBytes.ofPayload payload with
  | none => s.setXact .idle
  | some d =>
    let sc := s.cfg.setupClearsStall
    let s := s.modUsb fun u => { u with toggleOut := setEp u.toggleOut ep, toggleIn := setEp u.toggleIn ep }
    let s :=
      if sc then s.modUsb fun u => { u with inStall := clearEp u.inStall ep, outStall := clearEp u.outStall ep } else s
    ((s.sendU2S (.setup ep d sc)).tx (handshakeBytes .ack)).setXact .idle

/-! ### System domain -/

/-- `E_SETUP(ep, d, sc)` (42_setup.md R206). -/
def Sys.takeSetup (ep : Ep) (d : SetupBytes) (sc : Bool) (y : Sys) : Sys :=
  { y with
    setupOverwritten := y.setupReady || y.setupOverwritten
    setupData := d
    setupReady := true
    setupEpno := ep
    pending := y.pending.raise .setup
    inStallReg := if sc then clearEp y.inStallReg ep else y.inStallReg
    outStallReg := if sc then clearEp y.outStallReg ep else y.outStallReg }

/-! ### Window 1 -/

/-- Read `SETUP.DATA0` (42_setup.md R207). -/
def execRSetupData0 (s : State) : Out := .next (s.returnRead (place 0 s.sys.setupData.d0))

/-- Write `SETUP.DATA0`: ignored (42_setup.md R208). -/
def execWSetupData0 (_v : Word) (s : State) : Out := .next s

/-- Read `SETUP.DATA1` (42_setup.md R207). -/
def execRSetupData1 (s : State) : Out := .next (s.returnRead (place 0 s.sys.setupData.d1))

/-- Write `SETUP.DATA1`: ignored (42_setup.md R208). -/
def execWSetupData1 (_v : Word) (s : State) : Out := .next s

/-- Read `SETUP.DATA2` (42_setup.md R207). -/
def execRSetupData2 (s : State) : Out := .next (s.returnRead (place 0 s.sys.setupData.d2))

/-- Write `SETUP.DATA2`: ignored (42_setup.md R208). -/
def execWSetupData2 (_v : Word) (s : State) : Out := .next s

/-- Read `SETUP.DATA3` (42_setup.md R207). -/
def execRSetupData3 (s : State) : Out := .next (s.returnRead (place 0 s.sys.setupData.d3))

/-- Write `SETUP.DATA3`: ignored (42_setup.md R208). -/
def execWSetupData3 (_v : Word) (s : State) : Out := .next s

/-- Read `SETUP.DATA4` (42_setup.md R207). -/
def execRSetupData4 (s : State) : Out := .next (s.returnRead (place 0 s.sys.setupData.d4))

/-- Write `SETUP.DATA4`: ignored (42_setup.md R208). -/
def execWSetupData4 (_v : Word) (s : State) : Out := .next s

/-- Read `SETUP.DATA5` (42_setup.md R207). -/
def execRSetupData5 (s : State) : Out := .next (s.returnRead (place 0 s.sys.setupData.d5))

/-- Write `SETUP.DATA5`: ignored (42_setup.md R208). -/
def execWSetupData5 (_v : Word) (s : State) : Out := .next s

/-- Read `SETUP.DATA6` (42_setup.md R207). -/
def execRSetupData6 (s : State) : Out := .next (s.returnRead (place 0 s.sys.setupData.d6))

/-- Write `SETUP.DATA6`: ignored (42_setup.md R208). -/
def execWSetupData6 (_v : Word) (s : State) : Out := .next s

/-- Read `SETUP.DATA7` (42_setup.md R207). -/
def execRSetupData7 (s : State) : Out := .next (s.returnRead (place 0 s.sys.setupData.d7))

/-- Write `SETUP.DATA7`: ignored (42_setup.md R208). -/
def execWSetupData7 (_v : Word) (s : State) : Out := .next s

/-- Read `SETUP.STATUS` (42_setup.md R209). -/
def execRSetupStatus (s : State) : Out :=
  .next (s.returnRead
    (place 4 s.sys.setupEpno ||| placeBit 1 s.sys.setupOverwritten ||| placeBit 0 s.sys.setupReady))

/-- Write `SETUP.STATUS`: ignored (42_setup.md R210). -/
def execWSetupStatus (_v : Word) (s : State) : Out := .next s

/-- Write `SETUP.ACK` (42_setup.md R211). -/
def execWSetupAck (v : Word) (s : State) : Out :=
  .next (if bitField v then s.modSys fun y => { y with setupReady := false, setupOverwritten := false } else s)

/-- Read `SETUP.ACK`: 0 (42_setup.md R212). -/
def execRSetupAck (s : State) : Out := .next (s.returnRead 0)

end Sys2Proof.Machine
end

