-- ==== Sys2Proof/Machine/LinkLayer.lean ====
section
/-! DEFINITION. The link layer's dispatch to the transaction engine (40_link_layer.md R149 to R169): one meaning per PID,
and the timeout event. Classification is in Decode.lean. -/

namespace Sys2Proof.Machine

open Sys2Proof

/-- The token filter: does the device, in its present state, answer a token to `addr` (40_link_layer.md R150)? -/
def tokenAccepted (addr : DevAddr) (s : State) : Bool :=
  (match s.usb.devState with
    | .detached => false
    | .powered => false
    | .default => true
    | .addressed => true
    | .configured => true) && addr == s.usb.address

/-- A token: the open transaction is aborted, then `act` runs if the filter accepts (40_link_layer.md R149, R150). -/
def onToken (addr : DevAddr) (act : State → State) (s : State) : State :=
  let s := s.setXact .idle
  if tokenAccepted addr s then act s else s

/-- A DATA0 (`t` false) or DATA1 (`t` true) packet, by the open transaction (40_link_layer.md R149, R168). -/
def onData (t : Bool) (payload : List Byte) (s : State) : State :=
  match s.usb.xact with
  | .setupData ep => setupPacket ep payload s
  | .outData ep => outPacket ep t payload s
  | .idle => s.setXact .idle
  | .inHandshake _ _ => s.setXact .idle

/-- OUT token (40_link_layer.md R152). -/
def execPidOut (addr : DevAddr) (ep : Ep) (s : State) : Out := .next (onToken addr (outToken ep) s)

/-- IN token (40_link_layer.md R153). -/
def execPidIn (addr : DevAddr) (ep : Ep) (s : State) : Out := .next (onToken addr (inToken ep) s)

/-- SETUP token (40_link_layer.md R154). -/
def execPidSetup (addr : DevAddr) (ep : Ep) (s : State) : Out := .next (onToken addr (setupToken ep) s)

/-- SOF: the open transaction ends, the frame number is not stored (40_link_layer.md R155). -/
def execPidSof (_frame : BitVec 11) (s : State) : Out := .next (s.setXact .idle)

/-- DATA0 (40_link_layer.md R156). -/
def execPidData0 (payload : List Byte) (s : State) : Out := .next (onData false payload s)

/-- DATA1 (40_link_layer.md R157). -/
def execPidData1 (payload : List Byte) (s : State) : Out := .next (onData true payload s)

/-- DATA2: the open transaction ends with no handshake (40_link_layer.md R158). -/
def execPidData2 (_payload : List Byte) (s : State) : Out := .next (s.setXact .idle)

/-- MDATA, as DATA2 (40_link_layer.md R159). -/
def execPidMdata (_payload : List Byte) (s : State) : Out := .next (s.setXact .idle)

/-- ACK: the commit of an IN transfer, or the end of any other transaction (40_link_layer.md R160). -/
def execPidAck (s : State) : Out :=
  match s.usb.xact with
  | .inHandshake ep n => .next (inCommit ep n s)
  | .idle => .next (s.setXact .idle)
  | .setupData _ => .next (s.setXact .idle)
  | .outData _ => .next (s.setXact .idle)

/-- NAK from the host: the open transaction ends without a commit (40_link_layer.md R161). -/
def execPidNak (s : State) : Out := .next (s.setXact .idle)

/-- STALL from the host, as NAK (40_link_layer.md R162). -/
def execPidStall (s : State) : Out := .next (s.setXact .idle)

/-- NYET, as NAK (40_link_layer.md R163). -/
def execPidNyet (s : State) : Out := .next (s.setXact .idle)

/-- PRE or ERR: the open transaction ends (40_link_layer.md R164). -/
def execPidPreErr (_rest : List Byte) (s : State) : Out := .next (s.setXact .idle)

/-- SPLIT, as PRE (40_link_layer.md R165). -/
def execPidSplit (_rest : List Byte) (s : State) : Out := .next (s.setXact .idle)

/-- PING, as PRE; a Full-Speed device never answers it (40_link_layer.md R166). -/
def execPidPing (_rest : List Byte) (s : State) : Out := .next (s.setXact .idle)

/-- The reserved PID, as PRE (40_link_layer.md R167). -/
def execPidReserved (_rest : List Byte) (s : State) : Out := .next (s.setXact .idle)

/-- The `timeout` event (40_link_layer.md R169). -/
def timeout (s : State) : State := s.setXact .idle

end Sys2Proof.Machine
end

