-- ==== Sys2Proof/Machine/Channels.lean ====
section
/-! DEFINITION. The agents `S2U` and `U2S`: each delivers the head message of its channel by the rule the message names
(10_state.md R25, R26, R50, R51; 20_memory.md R92). -/

namespace Sys2Proof.Machine

open Sys2Proof

/-- The USB-domain rule of each `s2u` message (10_state.md R50). -/
def applyS2U : S2UMsg → State → State
  | .enable v, s => applyEnable v s
  | .address a, s => applyAddress a s
  | .configured v, s => applyConfigured v s
  | .softReset, s => applySoftReset s
  | .inPush b, s => applyInPush b s
  | .inReady ep, s => applyInReady ep s
  | .inStall m, s => applyInStall m s
  | .inEn m, s => applyInEn m s
  | .inFifoReset, s => applyInFifoReset s
  | .outAck, s => applyOutAck s
  | .outStall m, s => applyOutStall m s
  | .outEn m, s => applyOutEn m s

/-- The system-domain rule of each `u2s` message (10_state.md R51). -/
def Sys.take : U2SMsg → Sys → Sys
  | .devState st a sp, y => y.takeDevState st a sp
  | .line ls, y => y.takeLine ls
  | .reset kind, y => y.takeReset kind
  | .speed, y => y.takeSpeed
  | .setup ep d sc, y => y.takeSetup ep d sc
  | .inStatus r l o, y => y.takeInStatus r l o
  | .inDone ep, y => y.takeInDone ep
  | .inStalled ep, y => y.takeInStalled ep
  | .outData ep d, y => y.takeOutData ep d
  | .outStalled ep, y => y.takeOutStalled ep

/-- A step of `S2U`: the head of `s2u` is removed and applied; with nothing to deliver the agent is idle (10_state.md R25;
60_exceptions.md R310; log 12). -/
def deliverS2U (s : State) : State :=
  match s.s2u with
  | [] => s
  | m :: rest => applyS2U m { s with s2u := rest }

/-- A step of `U2S`: the head of `u2s` is removed and applied; with nothing to deliver the agent is idle (10_state.md R26;
60_exceptions.md R310; log 12). -/
def deliverU2S (s : State) : State :=
  match s.u2s with
  | [] => s
  | m :: rest => { s with u2s := rest }.modSys (Sys.take m)

end Sys2Proof.Machine
end

