-- ==== Sys2Proof/Machine/EventAggregator.lean ====
section
/-! DEFINITION. The event registers of every window (45_event_aggregator.md R282 to R285). -/

namespace Sys2Proof.Machine

open Sys2Proof

/-- Read `<L>.EV_PENDING` (45_event_aggregator.md R282). -/
def readPending (l : Line) (s : State) : State := s.returnRead (s.sys.pending.read l)

/-- Write `<L>.EV_PENDING`: clear the bits written as 1 (45_event_aggregator.md R283). -/
def clearPending (l : Line) (v : Word) (s : State) : State :=
  s.modSys fun y => { y with pending := y.pending.clear v l }

/-- Read `<L>.EV_ENABLE` (45_event_aggregator.md R284). -/
def readEnable (l : Line) (s : State) : State := s.returnRead (s.sys.enable.read l)

/-- Write `<L>.EV_ENABLE` (45_event_aggregator.md R285). -/
def writeEnable (l : Line) (v : Word) (s : State) : State :=
  s.modSys fun y => { y with enable := y.enable.assign v l }

/-- Read `DC.EV_PENDING` (45_event_aggregator.md R282). -/
def execRDcEvPending (s : State) : Out := .next (readPending .dc s)

/-- Write `DC.EV_PENDING` (45_event_aggregator.md R283). -/
def execWDcEvPending (v : Word) (s : State) : Out := .next (clearPending .dc v s)

/-- Read `DC.EV_ENABLE` (45_event_aggregator.md R284). -/
def execRDcEvEnable (s : State) : Out := .next (readEnable .dc s)

/-- Write `DC.EV_ENABLE` (45_event_aggregator.md R285). -/
def execWDcEvEnable (v : Word) (s : State) : Out := .next (writeEnable .dc v s)

/-- Read `SETUP.EV_PENDING` (45_event_aggregator.md R282). -/
def execRSetupEvPending (s : State) : Out := .next (readPending .setup s)

/-- Write `SETUP.EV_PENDING` (45_event_aggregator.md R283). -/
def execWSetupEvPending (v : Word) (s : State) : Out := .next (clearPending .setup v s)

/-- Read `SETUP.EV_ENABLE` (45_event_aggregator.md R284). -/
def execRSetupEvEnable (s : State) : Out := .next (readEnable .setup s)

/-- Write `SETUP.EV_ENABLE` (45_event_aggregator.md R285). -/
def execWSetupEvEnable (v : Word) (s : State) : Out := .next (writeEnable .setup v s)

/-- Read `IN.EV_PENDING` (45_event_aggregator.md R282). -/
def execRInEvPending (s : State) : Out := .next (readPending .inEp s)

/-- Write `IN.EV_PENDING` (45_event_aggregator.md R283). -/
def execWInEvPending (v : Word) (s : State) : Out := .next (clearPending .inEp v s)

/-- Read `IN.EV_ENABLE` (45_event_aggregator.md R284). -/
def execRInEvEnable (s : State) : Out := .next (readEnable .inEp s)

/-- Write `IN.EV_ENABLE` (45_event_aggregator.md R285). -/
def execWInEvEnable (v : Word) (s : State) : Out := .next (writeEnable .inEp v s)

/-- Read `OUT.EV_PENDING` (45_event_aggregator.md R282). -/
def execROutEvPending (s : State) : Out := .next (readPending .outEp s)

/-- Write `OUT.EV_PENDING` (45_event_aggregator.md R283). -/
def execWOutEvPending (v : Word) (s : State) : Out := .next (clearPending .outEp v s)

/-- Read `OUT.EV_ENABLE` (45_event_aggregator.md R284). -/
def execROutEvEnable (s : State) : Out := .next (readEnable .outEp s)

/-- Write `OUT.EV_ENABLE` (45_event_aggregator.md R285). -/
def execWOutEvEnable (v : Word) (s : State) : Out := .next (writeEnable .outEp v s)

end Sys2Proof.Machine
end

