-- ==== Sys2Proof/Machine/Dispatch.lean ====
section
/-! DEFINITION. The dispatch: one arm per instruction. -/

namespace Sys2Proof.Machine

open Sys2Proof

def exec (i : Instr) (s : State) : Host.Outcome State Fault Refusal :=
  match i with
  | .pidOut addr ep => Sys2Proof.Machine.execPidOut addr ep s
  | .pidIn addr ep => Sys2Proof.Machine.execPidIn addr ep s
  | .pidSof frame => Sys2Proof.Machine.execPidSof frame s
  | .pidSetup addr ep => Sys2Proof.Machine.execPidSetup addr ep s
  | .pidData0 payload => Sys2Proof.Machine.execPidData0 payload s
  | .pidData1 payload => Sys2Proof.Machine.execPidData1 payload s
  | .pidData2 payload => Sys2Proof.Machine.execPidData2 payload s
  | .pidMdata payload => Sys2Proof.Machine.execPidMdata payload s
  | .pidAck => Sys2Proof.Machine.execPidAck s
  | .pidNak => Sys2Proof.Machine.execPidNak s
  | .pidStall => Sys2Proof.Machine.execPidStall s
  | .pidNyet => Sys2Proof.Machine.execPidNyet s
  | .pidPreErr rest => Sys2Proof.Machine.execPidPreErr rest s
  | .pidSplit rest => Sys2Proof.Machine.execPidSplit rest s
  | .pidPing rest => Sys2Proof.Machine.execPidPing rest s
  | .pidReserved rest => Sys2Proof.Machine.execPidReserved rest s
  | .rDcEvPending => Sys2Proof.Machine.execRDcEvPending s
  | .wDcEvPending v => Sys2Proof.Machine.execWDcEvPending v s
  | .rDcEvEnable => Sys2Proof.Machine.execRDcEvEnable s
  | .wDcEvEnable v => Sys2Proof.Machine.execWDcEvEnable v s
  | .rDcEnable => Sys2Proof.Machine.execRDcEnable s
  | .wDcEnable v => Sys2Proof.Machine.execWDcEnable v s
  | .rDcAddress => Sys2Proof.Machine.execRDcAddress s
  | .wDcAddress v => Sys2Proof.Machine.execWDcAddress v s
  | .rDcSpeed => Sys2Proof.Machine.execRDcSpeed s
  | .wDcSpeed v => Sys2Proof.Machine.execWDcSpeed v s
  | .rDcStatus => Sys2Proof.Machine.execRDcStatus s
  | .wDcStatus v => Sys2Proof.Machine.execWDcStatus v s
  | .rDcCtrl => Sys2Proof.Machine.execRDcCtrl s
  | .wDcCtrl v => Sys2Proof.Machine.execWDcCtrl v s
  | .rDcConfigured => Sys2Proof.Machine.execRDcConfigured s
  | .wDcConfigured v => Sys2Proof.Machine.execWDcConfigured v s
  | .rSetupEvPending => Sys2Proof.Machine.execRSetupEvPending s
  | .wSetupEvPending v => Sys2Proof.Machine.execWSetupEvPending v s
  | .rSetupEvEnable => Sys2Proof.Machine.execRSetupEvEnable s
  | .wSetupEvEnable v => Sys2Proof.Machine.execWSetupEvEnable v s
  | .rSetupData0 => Sys2Proof.Machine.execRSetupData0 s
  | .wSetupData0 v => Sys2Proof.Machine.execWSetupData0 v s
  | .rSetupData1 => Sys2Proof.Machine.execRSetupData1 s
  | .wSetupData1 v => Sys2Proof.Machine.execWSetupData1 v s
  | .rSetupData2 => Sys2Proof.Machine.execRSetupData2 s
  | .wSetupData2 v => Sys2Proof.Machine.execWSetupData2 v s
  | .rSetupData3 => Sys2Proof.Machine.execRSetupData3 s
  | .wSetupData3 v => Sys2Proof.Machine.execWSetupData3 v s
  | .rSetupData4 => Sys2Proof.Machine.execRSetupData4 s
  | .wSetupData4 v => Sys2Proof.Machine.execWSetupData4 v s
  | .rSetupData5 => Sys2Proof.Machine.execRSetupData5 s
  | .wSetupData5 v => Sys2Proof.Machine.execWSetupData5 v s
  | .rSetupData6 => Sys2Proof.Machine.execRSetupData6 s
  | .wSetupData6 v => Sys2Proof.Machine.execWSetupData6 v s
  | .rSetupData7 => Sys2Proof.Machine.execRSetupData7 s
  | .wSetupData7 v => Sys2Proof.Machine.execWSetupData7 v s
  | .rSetupStatus => Sys2Proof.Machine.execRSetupStatus s
  | .wSetupStatus v => Sys2Proof.Machine.execWSetupStatus v s
  | .rSetupAck => Sys2Proof.Machine.execRSetupAck s
  | .wSetupAck v => Sys2Proof.Machine.execWSetupAck v s
  | .rInEvPending => Sys2Proof.Machine.execRInEvPending s
  | .wInEvPending v => Sys2Proof.Machine.execWInEvPending v s
  | .rInEvEnable => Sys2Proof.Machine.execRInEvEnable s
  | .wInEvEnable v => Sys2Proof.Machine.execWInEvEnable v s
  | .rInData => Sys2Proof.Machine.execRInData s
  | .wInData v => Sys2Proof.Machine.execWInData v s
  | .rInEpno => Sys2Proof.Machine.execRInEpno s
  | .wInEpno v => Sys2Proof.Machine.execWInEpno v s
  | .rInReady => Sys2Proof.Machine.execRInReady s
  | .wInReady v => Sys2Proof.Machine.execWInReady v s
  | .rInStall => Sys2Proof.Machine.execRInStall s
  | .wInStall v => Sys2Proof.Machine.execWInStall v s
  | .rInEpEnable => Sys2Proof.Machine.execRInEpEnable s
  | .wInEpEnable v => Sys2Proof.Machine.execWInEpEnable v s
  | .rInStatus => Sys2Proof.Machine.execRInStatus s
  | .wInStatus v => Sys2Proof.Machine.execWInStatus v s
  | .rInCtrl => Sys2Proof.Machine.execRInCtrl s
  | .wInCtrl v => Sys2Proof.Machine.execWInCtrl v s
  | .rOutEvPending => Sys2Proof.Machine.execROutEvPending s
  | .wOutEvPending v => Sys2Proof.Machine.execWOutEvPending v s
  | .rOutEvEnable => Sys2Proof.Machine.execROutEvEnable s
  | .wOutEvEnable v => Sys2Proof.Machine.execWOutEvEnable v s
  | .rOutData => Sys2Proof.Machine.execROutData s
  | .wOutData v => Sys2Proof.Machine.execWOutData v s
  | .rOutEpno => Sys2Proof.Machine.execROutEpno s
  | .wOutEpno v => Sys2Proof.Machine.execWOutEpno v s
  | .rOutAck => Sys2Proof.Machine.execROutAck s
  | .wOutAck v => Sys2Proof.Machine.execWOutAck v s
  | .rOutStall => Sys2Proof.Machine.execROutStall s
  | .wOutStall v => Sys2Proof.Machine.execWOutStall v s
  | .rOutEpEnable => Sys2Proof.Machine.execROutEpEnable s
  | .wOutEpEnable v => Sys2Proof.Machine.execWOutEpEnable v s
  | .rOutStatus => Sys2Proof.Machine.execROutStatus s
  | .wOutStatus v => Sys2Proof.Machine.execWOutStatus v s
  | .rOutCtrl => Sys2Proof.Machine.execROutCtrl s
  | .wOutCtrl v => Sys2Proof.Machine.execWOutCtrl v s

end Sys2Proof.Machine
end

