-- ==== Sys2Proof/Machine/Step.lean ====
section
/-! DEFINITION. One step of the machine: one step of one agent (10_state.md R21). -/

namespace Sys2Proof.Machine

open Sys2Proof

/-- A packet or an access: decoded, then run (40_link_layer.md R140, R149; 20_memory.md R86). -/
def runInput (x : Input) (s : State) : Host.Outcome State Fault Refusal :=
  match decode s.cfg.csrBase x with
  | .ok i => exec i s
  | .error r => rejectInput x r s

/-- One agent's step (10_state.md R21, R27). -/
def act (a : Action) (s : State) : Host.Outcome State Fault Refusal :=
  match a with
  | .input x => runInput x s
  | .busReset => .next (busReset s)
  | .timeout => .next (timeout s)
  | .lineState ls => .next (lineChange ls s)
  | .s2u => .next (deliverS2U s)
  | .u2s => .next (deliverU2S s)
  | .powerOn => .next (powerOn s)

/-- One step: the agenda's next action, or a drawn one, is taken (log 1). -/
def step (s : State) : Host.Outcome State Fault Refusal := act s.fetch.1 s.fetch.2

/-- `s` with the input of an opcode-table word as the very next step (log 2, log 5). The word of a register row gives an
address only together with `CSR_BASE`, which is open: such a word is placed with `CSR_BASE` = 0 (log 4). -/
def State.withFetchWord (s : State) (nbits w : Nat) : State :=
  { s with
    agenda := .input (tableInput nbits w) :: s.agenda
    cfg := if nbits < 32 then s.cfg else { s.cfg with csrPage := 0 } }

end Sys2Proof.Machine
end

