-- ==== Sys2Proof/Safety.lean ====
section
/-! DEFINITION. The predicates in which claims about runs are written: the invariants of 10_state.md R53 and of the rules it
rests on, the views that relate the two domains, the packets the core may send, and the fair runs of 20_memory.md R94. -/

namespace Sys2Proof.Machine

open Sys2Proof

/-- `Default`, `Addressed` or `Configured`: the states in which tokens are answered (40_link_layer.md R150). -/
def answers : DevState → Bool
  | .detached => false
  | .powered => false
  | .default => true
  | .addressed => true
  | .configured => true

/-- `Addressed` or `Configured` (10_state.md R33, R53 (a)). -/
def hasAddress : DevState → Bool
  | .detached => false
  | .powered => false
  | .default => false
  | .addressed => true
  | .configured => true

/-- A message of `u2s` that carries an OUT packet fits the OUT FIFO (10_state.md R51). -/
def U2SMsg.fits (depth : Nat) : U2SMsg → Bool
  | .outData _ d => d.length ≤ depth
  | .devState _ _ _ | .line _ | .reset _ | .speed | .setup _ _ _ | .inStatus _ _ _ | .inDone _ | .inStalled _
  | .outStalled _ => true

/-- An open transaction is consistent with the rest of the USB domain: it is open only while the device answers tokens, and
the bytes and the ready bit of an IN packet that waits for its handshake are still there (43_in_endpoint.md R225). -/
def Usb.xactOk (u : Usb) : Bool :=
  match u.xact with
  | .idle => true
  | .setupData _ => answers u.devState
  | .outData _ => answers u.devState
  | .inHandshake ep n => answers u.devState && decide (n ≤ u.inFifo.length) && testEp u.inReady ep

/-- The invariants of 10_state.md R53 in the form the rules keep them. -/
structure State.Inv (s : State) : Prop where
  /-- R53 (a), and the address is 0 in no other state. -/
  address : (s.usb.address ≠ 0) ↔ hasAddress s.usb.devState = true
  /-- The speed is FULL exactly from the first bus reset after the device is enabled (41_device_controller.md R175). -/
  speed : s.usb.speed = .full ↔ answers s.usb.devState = true
  /-- R53 (c), IN side. -/
  inFifo : s.usb.inFifo.length ≤ s.cfg.inDepth
  /-- R53 (c), OUT side. -/
  outFifo : s.sys.outFifo.length ≤ s.cfg.outDepth
  /-- Every packet on its way to the OUT FIFO fits it. -/
  inFlight : ∀ m ∈ s.u2s, m.fits s.cfg.outDepth = true
  /-- The open transaction. -/
  xact : s.usb.xactOk = true

/-- The system domain as it will be once every message now in `u2s` has been delivered. -/
def State.settledSys (s : State) : Sys := s.u2s.foldl (fun y m => y.take m) s.sys

/-- Once `u2s` has drained, every mirror equals its USB-domain value (60_exceptions.md R311). -/
structure State.MirrorsFollow (s : State) : Prop where
  state : s.settledSys.mState = s.usb.devState
  address : s.settledSys.mAddress = s.usb.address
  speed : s.settledSys.mSpeed = s.usb.speed
  inReady : s.settledSys.mInReady = s.usb.inReady
  inLevel : s.settledSys.mInLevel = levelOf s.usb.inFifo
  inOverflow : s.settledSys.mInOverflow = s.usb.inOverflow

/-- Is the message an OUT packet on its way to the system domain? -/
def U2SMsg.isOutData : U2SMsg → Bool
  | .outData _ _ => true
  | .devState _ _ _ | .line _ | .reset _ | .speed | .setup _ _ _ | .inStatus _ _ _ | .inDone _ | .inStalled _
  | .outStalled _ => false

/-- Is the message a core clear on its way to the system domain? -/
def U2SMsg.isReset : U2SMsg → Bool
  | .reset _ => true
  | .devState _ _ _ | .line _ | .speed | .setup _ _ _ | .inStatus _ _ _ | .inDone _ | .inStalled _ | .outData _ _
  | .outStalled _ => false

/-- Where the one stored OUT packet can be: on its way to the system domain, in the OUT FIFO, or acknowledged with the
acknowledge on its way back. -/
def State.outPlaces (s : State) : Nat :=
  s.u2s.countP U2SMsg.isOutData + (if s.sys.outAvailSys then 1 else 0) + s.s2u.countP (· == .outAck)

/-- `out_avail` is 1 exactly while one OUT packet is in one of these places. -/
def State.OutConserved (s : State) : Prop := s.outPlaces = if s.usb.outAvail then 1 else 0

/-- Neither a core clear in flight, nor one made by this action: a bus reset, or the delivery of `M_ENABLE(0)` or
`M_SOFT_RESET` (41_device_controller.md R171). -/
def State.noClear (a : Action) (s : State) : Bool :=
  !s.u2s.any U2SMsg.isReset && a != .busReset &&
    (a != .s2u || (s.s2u.head? != some (.enable false) && s.s2u.head? != some .softReset))

/-- `s2u` empty, `u2s` empty and no transaction open (60_exceptions.md R311). -/
def State.quiescent (s : State) : Bool := s.s2u.isEmpty && s.u2s.isEmpty && s.usb.xact == .idle

/-- The packets the core may send (30_encoding.md R121). -/
def legalTx (p : List Byte) : Prop :=
  p = [0xD2] ∨ p = [0x5A] ∨ p = [0x1E] ∨
    ∃ payload : List Byte, ∃ lo hi : Byte, hi ++ lo = crc16 payload ∧
      (p = 0xC3 :: (payload ++ [lo, hi]) ∨ p = 0x4B :: (payload ++ [lo, hi]))

/-- The action is an access of firmware. -/
def isFw : Action → Bool
  | .input (.csrRead _) => true
  | .input (.csrWrite _ _) => true
  | .input (.packet _ _) => false
  | .busReset | .timeout | .lineState _ | .s2u | .u2s | .powerOn => false

/-- A run: `σ` names the action taken at each moment and `r` the state before it. What stands in the agenda is the
environment's (log 1), which may place any. -/
def Run (σ : Nat → Action) (r : Nat → State) : Prop :=
  ∀ n, ∃ (l : List Action) (d : Nat), act (σ n) { r n with agenda := l, draws := d } = .next (r (n + 1))

/-- Weak fairness of `S2U` and `U2S`, the delay bound of an untimed model (20_memory.md R94; D8): no moment comes from which
on the channel is never empty and its agent never steps. -/
structure Fair (σ : Nat → Action) (r : Nat → State) : Prop where
  s2u : ∀ n, ∃ m, n ≤ m ∧ ((r m).s2u = [] ∨ σ m = .s2u)
  u2s : ∀ n, ∃ m, n ≤ m ∧ ((r m).u2s = [] ∨ σ m = .u2s)

/-- A handled bus reset that flushes `s2u` (41_device_controller.md R174). -/
def State.flushes (a : Action) (s : State) : Prop :=
  a = .busReset ∧ s.usb.devState ≠ .detached ∧ s.cfg.s2uFlushOnReset = true

end Sys2Proof.Machine
end

