-- ==== Sys2Proof/Certificates/Slice0/Obligations.lean ====
section
/-! DEFINITION. The statements for the provers. An action is taken by `act`; `step` takes the agenda's next one. "Delivery of
m" is the action `.u2s` or `.s2u` with m at the head of the channel. An equation for a whole next state is also its frame:
what it does not list is unchanged. -/

open Sys2Proof Sys2Proof.Machine

/-! ### Register accesses -/

/-- 20_memory.md R89: reads of the 9 `W` and `WS` registers, and writes of the 15 `R` registers. -/
def Obligations.WriteOnlyReadsAndReadOnlyWrites : Prop :=
  ∀ (s : State) (v : Word),
    (∀ i ∈ [Instr.rDcEnable, .rDcCtrl, .rSetupAck, .rInData, .rInEpno, .rInReady, .rInCtrl, .rOutAck, .rOutCtrl],
      exec i s = .next { s with readLog := s.readLog ++ [0] }) ∧
    (∀ i ∈ [Instr.wDcSpeed v, .wDcStatus v, .wSetupData0 v, .wSetupData1 v, .wSetupData2 v, .wSetupData3 v,
        .wSetupData4 v, .wSetupData5 v, .wSetupData6 v, .wSetupData7 v, .wSetupStatus v, .wInStatus v, .wOutData v,
        .wOutEpno v, .wOutStatus v],
      exec i s = .next s)

/-- 41_device_controller.md R189, R192, R197, and the value of R190: the DC registers read their mirrors, with the
encodings of 10_state.md R32, R34 and R43 and reserved bits 0. -/
def Obligations.DcRegisterReads : Prop :=
  ∀ s : State, ∃ a sp st c : Word,
    exec .rDcAddress s = .next { s with readLog := s.readLog ++ [a] } ∧ a.toNat = s.sys.mAddress.toNat ∧
    exec .rDcSpeed s = .next { s with readLog := s.readLog ++ [sp] } ∧
      (s.sys.mSpeed = .none → sp = 0) ∧ (s.sys.mSpeed = .full → sp = 1) ∧
    exec .rDcStatus s = .next { s with readLog := s.readLog ++ [st] } ∧
      (s.sys.mState = .detached → st.extractLsb' 0 4 = 0) ∧ (s.sys.mState = .powered → st.extractLsb' 0 4 = 1) ∧
      (s.sys.mState = .default → st.extractLsb' 0 4 = 2) ∧ (s.sys.mState = .addressed → st.extractLsb' 0 4 = 3) ∧
      (s.sys.mState = .configured → st.extractLsb' 0 4 = 4) ∧
      (s.sys.mLine = .se0 → st.extractLsb' 4 28 = 0) ∧ (s.sys.mLine = .j → st.extractLsb' 4 28 = 1) ∧
      (s.sys.mLine = .k → st.extractLsb' 4 28 = 2) ∧ (s.sys.mLine = .se1 → st.extractLsb' 4 28 = 3) ∧
    exec .rDcConfigured s = .next { s with readLog := s.readLog ++ [c] } ∧
      (s.sys.mState = .configured → c = 1) ∧ (s.sys.mState ≠ .configured → c = 0)

/-- 42_setup.md R207, R209: `SETUP.DATA<i>` reads byte i of the latched payload, `SETUP.STATUS` its three fields. -/
def Obligations.SetupRegisterReads : Prop :=
  ∀ s : State,
    (∀ p ∈ [(Instr.rSetupData0, s.sys.setupData.d0), (.rSetupData1, s.sys.setupData.d1),
        (.rSetupData2, s.sys.setupData.d2), (.rSetupData3, s.sys.setupData.d3), (.rSetupData4, s.sys.setupData.d4),
        (.rSetupData5, s.sys.setupData.d5), (.rSetupData6, s.sys.setupData.d6), (.rSetupData7, s.sys.setupData.d7)],
      ∃ v : Word, exec p.1 s = .next { s with readLog := s.readLog ++ [v] } ∧ v.toNat = p.2.toNat) ∧
    ∃ v : Word, exec .rSetupStatus s = .next { s with readLog := s.readLog ++ [v] } ∧
      v.toNat = 16 * s.sys.setupEpno.toNat + 2 * s.sys.setupOverwritten.toNat + s.sys.setupReady.toNat

/-- 43_in_endpoint.md R243, R245, R246: the readable registers of the IN window, field by field, reserved bits 0. -/
def Obligations.InRegisterReads : Prop :=
  ∀ s : State, ∃ st en v : Word,
    exec .rInStall s = .next { s with readLog := s.readLog ++ [st] } ∧ st.toNat = s.sys.inStallReg.toNat ∧
    exec .rInEpEnable s = .next { s with readLog := s.readLog ++ [en] } ∧ en.toNat = s.sys.inEnReg.toNat ∧
    exec .rInStatus s = .next { s with readLog := s.readLog ++ [v] } ∧
      v.extractLsb' 0 16 = s.sys.mInReady ∧ v.extractLsb' 16 7 = s.sys.mInLevel ∧ v.getLsbD 23 = false ∧
      v.getLsbD 24 = s.sys.mInOverflow ∧ v.extractLsb' 25 3 = 0 ∧ v.extractLsb' 28 4 = s.sys.inLastEpno

/-- 44_out_endpoint.md R265, R270, R272, R273: the readable registers of the OUT window that have no side effect, field by
field, reserved bits 0. That a length above 127 would show modulo 128, with the bits above LEVEL 0, is the model's choice
(log 13); no reachable FIFO is that long (`State.Inv`; 00_scope.md R6). -/
def Obligations.OutRegisterReads : Prop :=
  ∀ s : State, ∃ ep st en v : Word,
    exec .rOutEpno s = .next { s with readLog := s.readLog ++ [ep] } ∧ ep.toNat = s.sys.outEpno.toNat ∧
    exec .rOutStall s = .next { s with readLog := s.readLog ++ [st] } ∧ st.toNat = s.sys.outStallReg.toNat ∧
    exec .rOutEpEnable s = .next { s with readLog := s.readLog ++ [en] } ∧ en.toNat = s.sys.outEnReg.toNat ∧
    exec .rOutStatus s = .next { s with readLog := s.readLog ++ [v] } ∧
      v.getLsbD 0 = s.sys.outAvailSys ∧ v.getLsbD 1 = decide (s.sys.outFifo.length ≠ 0) ∧ v.extractLsb' 2 14 = 0 ∧
      (v.extractLsb' 16 7).toNat = s.sys.outFifo.length % 128 ∧ v.extractLsb' 23 5 = 0 ∧
      v.extractLsb' 28 4 = s.sys.outStallEpno

/-- 45_event_aggregator.md R282, R284: `EV_PENDING` and `EV_ENABLE` of the four windows read their bits, zero-extended, and
change nothing. -/
def Obligations.EventRegisterReads : Prop :=
  ∀ s : State,
    ∀ p ∈ [(Instr.rDcEvPending, s.sys.pending.dc.toNat), (.rSetupEvPending, s.sys.pending.setup.toNat),
        (.rInEvPending, s.sys.pending.inEp.toNat), (.rOutEvPending, s.sys.pending.outEp.toNat),
        (.rDcEvEnable, s.sys.enable.dc.toNat), (.rSetupEvEnable, s.sys.enable.setup.toNat),
        (.rInEvEnable, s.sys.enable.inEp.toNat), (.rOutEvEnable, s.sys.enable.outEp.toNat)],
      ∃ v : Word, exec p.1 s = .next { s with readLog := s.readLog ++ [v] } ∧ v.toNat = p.2

/-- 44_out_endpoint.md R263: a read of `OUT.DATA` pops the oldest byte, and returns 0 with no side effect when there is none;
`out_avail_sys` is not touched. -/
def Obligations.OutDataReadPops : Prop :=
  ∀ s : State,
    (s.sys.outFifo = [] → exec .rOutData s = .next { s with readLog := s.readLog ++ [0] }) ∧
    ∀ (b : Byte) (rest : List Byte), s.sys.outFifo = b :: rest →
      ∃ v : Word, v.toNat = b.toNat ∧
        exec .rOutData s =
          .next { s with sys := { s.sys with outFifo := rest }, readLog := s.readLog ++ [v] }

/-- 41_device_controller.md R186, R188, R194, R196: what each write of the DC window sends. Nothing else changes: the effect
comes when the message is applied. -/
def Obligations.DcWritesSendMessages : Prop :=
  ∀ (s : State) (v : Word),
    exec (.wDcEnable v) s = .next { s with s2u := s.s2u ++ [.enable (decide (v.toNat % 2 = 1))] } ∧
    (∃ a : DevAddr, a.toNat = v.toNat % 128 ∧
      exec (.wDcAddress v) s = .next { s with s2u := s.s2u ++ [.address a] }) ∧
    (v.toNat % 2 = 1 → exec (.wDcCtrl v) s = .next { s with s2u := s.s2u ++ [.softReset] }) ∧
    (v.toNat % 2 = 0 → exec (.wDcCtrl v) s = .next s) ∧
    exec (.wDcConfigured v) s = .next { s with s2u := s.s2u ++ [.configured (decide (v.toNat % 2 = 1))] }

/-- 42_setup.md R211: `SETUP.ACK` clears `setup_ready` and `setup_overwritten` and nothing else, and sends no message. -/
def Obligations.SetupAckClearsReady : Prop :=
  ∀ (s : State) (v : Word),
    (v.toNat % 2 = 1 →
      exec (.wSetupAck v) s =
        .next { s with sys := { s.sys with setupReady := false, setupOverwritten := false } }) ∧
    (v.toNat % 2 = 0 → exec (.wSetupAck v) s = .next s)

/-- 43_in_endpoint.md R236, R238, R240, R244, R248: the writes of the IN window other than STALL. -/
def Obligations.InWritesSendMessages : Prop :=
  ∀ (s : State) (v : Word), ∃ (b : Byte) (ep : Ep) (m : Mask),
    b.toNat = v.toNat % 256 ∧ ep.toNat = v.toNat % 16 ∧ m.toNat = v.toNat % 65536 ∧
    exec (.wInData v) s = .next { s with s2u := s.s2u ++ [.inPush b] } ∧
    exec (.wInEpno v) s = .next { s with sys := { s.sys with inEpnoReg := ep } } ∧
    exec (.wInEpEnable v) s = .next { s with sys := { s.sys with inEnReg := m }, s2u := s.s2u ++ [.inEn m] } ∧
    (v.toNat % 2 = 1 → exec (.wInReady v) s = .next { s with s2u := s.s2u ++ [.inReady s.sys.inEpnoReg] }) ∧
    (v.toNat % 2 = 0 → exec (.wInReady v) s = .next s) ∧
    (v.toNat % 2 = 1 → exec (.wInCtrl v) s = .next { s with s2u := s.s2u ++ [.inFifoReset] }) ∧
    (v.toNat % 2 = 0 → exec (.wInCtrl v) s = .next s)

/-- 43_in_endpoint.md R242: a write of `IN.STALL` that clears a bit sends a FIFO reset ahead of the new mask. -/
def Obligations.InStallWrite : Prop :=
  ∀ (s : State) (v : Word), ∃ m : Mask, m.toNat = v.toNat % 65536 ∧
    ((∃ n < 16, s.sys.inStallReg.getLsbD n = true ∧ m.getLsbD n = false) →
      exec (.wInStall v) s =
        .next { s with sys := { s.sys with inStallReg := m }, s2u := s.s2u ++ [.inFifoReset, .inStall m] }) ∧
    ((∀ n < 16, s.sys.inStallReg.getLsbD n = true → m.getLsbD n = true) →
      exec (.wInStall v) s =
        .next { s with sys := { s.sys with inStallReg := m }, s2u := s.s2u ++ [.inStall m] })

/-- 44_out_endpoint.md R262, R267, R275: `OUT.ACK` and `OUT.CTRL` discard the stored packet and send `M_OUT_ACK`, and do
nothing while no data is available. -/
def Obligations.OutAckAndCtrlClear : Prop :=
  ∀ (s : State) (v : Word), ∀ i ∈ [Instr.wOutAck v, .wOutCtrl v],
    (v.toNat % 2 = 1 → s.sys.outAvailSys = true →
      exec i s =
        .next { s with sys := { s.sys with outFifo := [], outAvailSys := false }, s2u := s.s2u ++ [.outAck] }) ∧
    (v.toNat % 2 = 1 → s.sys.outAvailSys = false → exec i s = .next s) ∧
    (v.toNat % 2 = 0 → exec i s = .next s)

/-- 44_out_endpoint.md R269, R271: `OUT.STALL`, which clears the FIFO first when it clears a stall bit, and
`OUT.EP_ENABLE`. -/
def Obligations.OutStallAndEnableWrites : Prop :=
  ∀ (s : State) (v : Word), ∃ m : Mask, m.toNat = v.toNat % 65536 ∧
    ((∃ n < 16, s.sys.outStallReg.getLsbD n = true ∧ m.getLsbD n = false) → s.sys.outAvailSys = true →
      exec (.wOutStall v) s =
        .next { s with
          sys := { s.sys with outStallReg := m, outFifo := [], outAvailSys := false }
          s2u := s.s2u ++ [.outAck, .outStall m] }) ∧
    ((∀ n < 16, s.sys.outStallReg.getLsbD n = true → m.getLsbD n = true) ∨ s.sys.outAvailSys = false →
      exec (.wOutStall v) s =
        .next { s with sys := { s.sys with outStallReg := m }, s2u := s.s2u ++ [.outStall m] }) ∧
    exec (.wOutEpEnable v) s = .next { s with sys := { s.sys with outEnReg := m }, s2u := s.s2u ++ [.outEn m] }

/-- 45_event_aggregator.md R283, R285: a write of `EV_PENDING` clears exactly the bits of that line written as 1, and a write
of `EV_ENABLE` sets the enable bits of that line to those of `v`. -/
def Obligations.EventRegisterWrites : Prop :=
  ∀ (s : State) (v : Word), ∃ (d : BitVec 2) (e : BitVec 1) (n o two : BitVec 2) (one : BitVec 1),
    (∀ k < 2, d.getLsbD k = (s.sys.pending.dc.getLsbD k && !v.getLsbD k)) ∧
    e.getLsbD 0 = (s.sys.pending.setup.getLsbD 0 && !v.getLsbD 0) ∧
    (∀ k < 2, n.getLsbD k = (s.sys.pending.inEp.getLsbD k && !v.getLsbD k)) ∧
    (∀ k < 2, o.getLsbD k = (s.sys.pending.outEp.getLsbD k && !v.getLsbD k)) ∧
    two.toNat = v.toNat % 4 ∧ one.toNat = v.toNat % 2 ∧
    exec (.wDcEvPending v) s = .next { s with sys := { s.sys with pending := { s.sys.pending with dc := d } } } ∧
    exec (.wSetupEvPending v) s =
      .next { s with sys := { s.sys with pending := { s.sys.pending with setup := e } } } ∧
    exec (.wInEvPending v) s = .next { s with sys := { s.sys with pending := { s.sys.pending with inEp := n } } } ∧
    exec (.wOutEvPending v) s = .next { s with sys := { s.sys with pending := { s.sys.pending with outEp := o } } } ∧
    exec (.wDcEvEnable v) s = .next { s with sys := { s.sys with enable := { s.sys.enable with dc := two } } } ∧
    exec (.wSetupEvEnable v) s = .next { s with sys := { s.sys with enable := { s.sys.enable with setup := one } } } ∧
    exec (.wInEvEnable v) s = .next { s with sys := { s.sys with enable := { s.sys.enable with inEp := two } } } ∧
    exec (.wOutEvEnable v) s = .next { s with sys := { s.sys with enable := { s.sys.enable with outEp := two } } }

/-- 10_state.md R52: the interrupt output of a line is 1 exactly when some bit of it is both pending and enabled. -/
def Obligations.IrqIsPendingAndEnable : Prop :=
  ∀ s : State,
    (s.irq .dc = true ↔ ∃ k < 2, s.sys.pending.dc.getLsbD k = true ∧ s.sys.enable.dc.getLsbD k = true) ∧
    (s.irq .setup = true ↔ s.sys.pending.setup.getLsbD 0 = true ∧ s.sys.enable.setup.getLsbD 0 = true) ∧
    (s.irq .inEp = true ↔ ∃ k < 2, s.sys.pending.inEp.getLsbD k = true ∧ s.sys.enable.inEp.getLsbD k = true) ∧
    (s.irq .outEp = true ↔ ∃ k < 2, s.sys.pending.outEp.getLsbD k = true ∧ s.sys.enable.outEp.getLsbD k = true)

/-! ### Packets -/

/-- 40_link_layer.md R149, R150: a token the filter does not accept only ends the open transaction. -/
def Obligations.UnacceptedTokenIgnored : Prop :=
  ∀ (s : State) (addr : DevAddr) (ep : Ep),
    (s.usb.devState = .detached ∨ s.usb.devState = .powered ∨ addr ≠ s.usb.address) →
    ∀ i ∈ [Instr.pidOut addr ep, .pidIn addr ep, .pidSetup addr ep],
      exec i s = .next { s with usb := { s.usb with xact := .idle } }

/-- 42_setup.md R200 and 44_out_endpoint.md R250: an accepted SETUP or OUT token opens its transaction if the OUT enable bit
of its endpoint is 1, and is ignored if it is 0; nothing is sent, and no stall, ready or data-available bit matters. -/
def Obligations.SetupAndOutTokensOpen : Prop :=
  ∀ (s : State) (ep : Ep),
    (s.usb.devState = .default ∨ s.usb.devState = .addressed ∨ s.usb.devState = .configured) →
    (s.usb.outEn.getLsbD ep.toNat = true →
      exec (.pidSetup s.usb.address ep) s = .next { s with usb := { s.usb with xact := .setupData ep } } ∧
      exec (.pidOut s.usb.address ep) s = .next { s with usb := { s.usb with xact := .outData ep } }) ∧
    (s.usb.outEn.getLsbD ep.toNat = false →
      exec (.pidSetup s.usb.address ep) s = .next { s with usb := { s.usb with xact := .idle } } ∧
      exec (.pidOut s.usb.address ep) s = .next { s with usb := { s.usb with xact := .idle } })

/-- 43_in_endpoint.md R220 to R224: the answer to an accepted IN token, by enable, then stall, then ready. -/
def Obligations.InTokenAnswers : Prop :=
  ∀ (s : State) (ep : Ep),
    (s.usb.devState = .default ∨ s.usb.devState = .addressed ∨ s.usb.devState = .configured) →
    (s.usb.inEn.getLsbD ep.toNat = false →
      exec (.pidIn s.usb.address ep) s = .next { s with usb := { s.usb with xact := .idle } }) ∧
    (s.usb.inEn.getLsbD ep.toNat = true → s.usb.inStall.getLsbD ep.toNat = true →
      exec (.pidIn s.usb.address ep) s =
        .next { s with
          usb := { s.usb with xact := .idle }, txLog := s.txLog ++ [[0x1E]], u2s := s.u2s ++ [.inStalled ep] }) ∧
    (s.usb.inEn.getLsbD ep.toNat = true → s.usb.inStall.getLsbD ep.toNat = false →
      s.usb.inReady.getLsbD ep.toNat = true →
      ∃ lo hi : Byte, hi ++ lo = crc16 s.usb.inFifo ∧
        exec (.pidIn s.usb.address ep) s =
          .next { s with
            usb := { s.usb with xact := .inHandshake ep s.usb.inFifo.length }
            txLog := s.txLog ++
              [(if s.usb.toggleIn.getLsbD ep.toNat = true then 0x4B else 0xC3) :: (s.usb.inFifo ++ [lo, hi])] }) ∧
    (s.usb.inEn.getLsbD ep.toNat = true → s.usb.inStall.getLsbD ep.toNat = false →
      s.usb.inReady.getLsbD ep.toNat = false →
      exec (.pidIn s.usb.address ep) s =
        .next { s with usb := { s.usb with xact := .idle }, txLog := s.txLog ++ [[0x5A]] })

/-- 43_in_endpoint.md R225: the host's ACK commits the transfer. The level sent is the length modulo 128 (log 13, the model's
choice; no reachable FIFO is longer than 127). -/
def Obligations.AckCommitsInTransfer : Prop :=
  ∀ (s : State) (ep : Ep) (n : Nat), s.usb.xact = .inHandshake ep n →
    ∃ (r g : Mask) (l : BitVec 7),
      (∀ k < 16, r.getLsbD k = (s.usb.inReady.getLsbD k && decide (k ≠ ep.toNat))) ∧
      (∀ k < 16, g.getLsbD k = (s.usb.toggleIn.getLsbD k ^^ decide (k = ep.toNat))) ∧
      l.toNat = (s.usb.inFifo.length - n) % 128 ∧
      exec .pidAck s =
        .next { s with
          usb := { s.usb with inFifo := s.usb.inFifo.drop n, inReady := r, toggleIn := g, xact := .idle }
          u2s := s.u2s ++ [.inDone ep, .inStatus r l s.usb.inOverflow] }

/-- 42_setup.md R201 to R204: a DATA0 or DATA1 packet in `SetupData(ep)`. With 8 bytes it is latched and acknowledged and
both toggles of the endpoint become 1; with any other length it is dropped. -/
def Obligations.SetupDataPacket : Prop :=
  ∀ (s : State) (ep : Ep) (payload : List Byte), s.usb.xact = .setupData ep →
    ∀ i ∈ [Instr.pidData0 payload, .pidData1 payload],
      (payload.length ≠ 8 → exec i s = .next { s with usb := { s.usb with xact := .idle } }) ∧
      (∀ b0 b1 b2 b3 b4 b5 b6 b7 : Byte, payload = [b0, b1, b2, b3, b4, b5, b6, b7] →
        ∃ go gi so si : Mask,
          (∀ k < 16, go.getLsbD k = (s.usb.toggleOut.getLsbD k || decide (k = ep.toNat))) ∧
          (∀ k < 16, gi.getLsbD k = (s.usb.toggleIn.getLsbD k || decide (k = ep.toNat))) ∧
          (∀ k < 16, so.getLsbD k =
            (s.usb.outStall.getLsbD k && !(s.cfg.setupClearsStall && decide (k = ep.toNat)))) ∧
          (∀ k < 16, si.getLsbD k =
            (s.usb.inStall.getLsbD k && !(s.cfg.setupClearsStall && decide (k = ep.toNat)))) ∧
          exec i s =
            .next { s with
              usb := { s.usb with toggleOut := go, toggleIn := gi, outStall := so, inStall := si, xact := .idle }
              u2s := s.u2s ++ [.setup ep ⟨b0, b1, b2, b3, b4, b5, b6, b7⟩ s.cfg.setupClearsStall]
              txLog := s.txLog ++ [[0xD2]] })

/-- 44_out_endpoint.md R251 to R256: a DATA0 (t = 0) or DATA1 (t = 1) packet in `OutData(ep)`, by length, then stall, then
back-pressure, then toggle. -/
def Obligations.OutDataPacket : Prop :=
  ∀ (s : State) (ep : Ep) (payload : List Byte), s.usb.xact = .outData ep →
    ∀ p ∈ [(Instr.pidData0 payload, false), (.pidData1 payload, true)],
      (s.cfg.outDepth < payload.length → exec p.1 s = .next { s with usb := { s.usb with xact := .idle } }) ∧
      (payload.length ≤ s.cfg.outDepth → s.usb.outStall.getLsbD ep.toNat = true →
        exec p.1 s =
          .next { s with
            usb := { s.usb with xact := .idle }, txLog := s.txLog ++ [[0x1E]], u2s := s.u2s ++ [.outStalled ep] }) ∧
      (payload.length ≤ s.cfg.outDepth → s.usb.outStall.getLsbD ep.toNat = false → s.usb.outAvail = true →
        exec p.1 s = .next { s with usb := { s.usb with xact := .idle }, txLog := s.txLog ++ [[0x5A]] }) ∧
      (payload.length ≤ s.cfg.outDepth → s.usb.outStall.getLsbD ep.toNat = false → s.usb.outAvail = false →
        s.usb.toggleOut.getLsbD ep.toNat ≠ p.2 →
        exec p.1 s = .next { s with usb := { s.usb with xact := .idle }, txLog := s.txLog ++ [[0xD2]] }) ∧
      (payload.length ≤ s.cfg.outDepth → s.usb.outStall.getLsbD ep.toNat = false → s.usb.outAvail = false →
        s.usb.toggleOut.getLsbD ep.toNat = p.2 →
        ∃ g : Mask, (∀ k < 16, g.getLsbD k = (s.usb.toggleOut.getLsbD k ^^ decide (k = ep.toNat))) ∧
          exec p.1 s =
            .next { s with
              usb := { s.usb with outAvail := true, toggleOut := g, xact := .idle }
              u2s := s.u2s ++ [.outData ep payload]
              txLog := s.txLog ++ [[0xD2]] })

/-- 40_link_layer.md R155, R158, R159, R161 to R168: every other well-formed packet, and `timeout` (R169), only ends the open
transaction. -/
def Obligations.OtherPacketsEndTransaction : Prop :=
  ∀ (s : State) (frame : BitVec 11) (bytes : List Byte),
    (∀ i ∈ [Instr.pidSof frame, .pidData2 bytes, .pidMdata bytes, .pidNak, .pidStall, .pidNyet, .pidPreErr bytes,
        .pidSplit bytes, .pidPing bytes, .pidReserved bytes],
      exec i s = .next { s with usb := { s.usb with xact := .idle } }) ∧
    ((∀ ep n, s.usb.xact ≠ .inHandshake ep n) →
      exec .pidAck s = .next { s with usb := { s.usb with xact := .idle } }) ∧
    ((s.usb.xact = .idle ∨ ∃ ep n, s.usb.xact = .inHandshake ep n) →
      ∀ i ∈ [Instr.pidData0 bytes, .pidData1 bytes],
        exec i s = .next { s with usb := { s.usb with xact := .idle } }) ∧
    act .timeout s = .next { s with usb := { s.usb with xact := .idle } }

/-- 43_in_endpoint.md R226: after an IN packet that was sent, `timeout` and every packet but the ACK commit nothing and send
no message, and the next IN token to the endpoint sends the same packet. The one exception to "no message" is R222: the packet
is itself an IN token to an enabled, stalled endpoint, and sends its STALL report. -/
def Obligations.UnacknowledgedInDataIsResent : Prop :=
  ∀ (s t u : State) (ep : Ep) (a : Action),
    exec (.pidIn s.usb.address ep) s = .next t → t.usb.xact = .inHandshake ep s.usb.inFifo.length →
    (a = .timeout ∨
      ∃ (bytes : List Byte) (err : Bool), a = .input (.packet bytes err) ∧ ¬(bytes = [0xD2] ∧ err = false)) →
    act a t = .next u →
    ∃ (p : List Byte) (w : State),
      t.txLog = s.txLog ++ [p] ∧ u.usb.inFifo = s.usb.inFifo ∧ u.usb.inReady = s.usb.inReady ∧
      u.usb.toggleIn = s.usb.toggleIn ∧
      (u.u2s = t.u2s ∨
        ∃ q : Ep, a = .input (encode s.cfg.csrBase (.pidIn s.usb.address q)) ∧ s.usb.inEn.getLsbD q.toNat = true ∧
          s.usb.inStall.getLsbD q.toNat = true ∧ u.u2s = t.u2s ++ [.inStalled q]) ∧
      exec (.pidIn s.usb.address ep) u = .next w ∧ w.txLog = u.txLog ++ [p]

/-! ### Device controller events and messages -/

/-- 41_device_controller.md R171 to R174: a bus reset. -/
def Obligations.BusResetClearsCore : Prop :=
  ∀ s : State,
    (s.usb.devState = .detached → act .busReset s = .next s) ∧
    (s.usb.devState ≠ .detached →
      act .busReset s =
        .next { s with
          usb :=
            { devState := .default, address := 0, speed := .full, toggleIn := 0, toggleOut := 0, inStall := 0,
              outStall := 0, inEn := 1, outEn := 1, inFifo := [], inReady := 0, inOverflow := false,
              outAvail := false, xact := .idle }
          u2s := s.u2s ++ [.reset .bus, .inStatus 0 0 false, .devState .default 0 .full] ++
            (if s.usb.speed = .full then [] else [.speed])
          s2u := if s.cfg.s2uFlushOnReset = true then [] else s.s2u })

/-- 41_device_controller.md R176, R177, R180: the delivery of `M_ENABLE(1)`, `M_ENABLE(0)` and `M_SOFT_RESET`. -/
def Obligations.EnableDisableSoftReset : Prop :=
  ∀ (s : State) (rest : List S2UMsg),
    (s.s2u = .enable true :: rest →
      (s.usb.devState = .detached →
        act .s2u s =
          .next { s with
            s2u := rest, usb := { s.usb with devState := .powered }
            u2s := s.u2s ++ [.devState .powered s.usb.address s.usb.speed] }) ∧
      (s.usb.devState ≠ .detached → act .s2u s = .next { s with s2u := rest })) ∧
    (s.s2u = .enable false :: rest →
      (s.usb.devState = .detached → act .s2u s = .next { s with s2u := rest }) ∧
      (s.usb.devState ≠ .detached →
        act .s2u s =
          .next { s with
            s2u := rest, usb := Usb.reset
            u2s := s.u2s ++ [.reset .soft, .inStatus 0 0 false, .devState .detached 0 .none] })) ∧
    (s.s2u = .softReset :: rest →
      (s.usb.devState = .detached → act .s2u s = .next { s with s2u := rest }) ∧
      (s.usb.devState = .powered →
        act .s2u s =
          .next { s with
            s2u := rest, usb := { Usb.reset with devState := .powered, speed := s.usb.speed }
            u2s := s.u2s ++ [.reset .soft, .inStatus 0 0 false, .devState .powered 0 s.usb.speed] }) ∧
      (s.usb.devState ≠ .detached → s.usb.devState ≠ .powered →
        act .s2u s =
          .next { s with
            s2u := rest, usb := { Usb.reset with devState := .default, speed := s.usb.speed }
            u2s := s.u2s ++ [.reset .soft, .inStatus 0 0 false, .devState .default 0 s.usb.speed] }))

/-- 41_device_controller.md R178, R179: the delivery of `M_ADDRESS(a)` and `M_CONFIGURED(v)`. -/
def Obligations.AddressAndConfiguredMessages : Prop :=
  ∀ (s : State) (rest : List S2UMsg),
    (∀ a : DevAddr, s.s2u = .address a :: rest →
      (s.usb.devState = .detached ∨ s.usb.devState = .powered → act .s2u s = .next { s with s2u := rest }) ∧
      (s.usb.devState = .default → a = 0 →
        act .s2u s =
          .next { s with s2u := rest, u2s := s.u2s ++ [.devState .default s.usb.address s.usb.speed] }) ∧
      (s.usb.devState = .default ∨ s.usb.devState = .addressed → a ≠ 0 →
        act .s2u s =
          .next { s with
            s2u := rest, usb := { s.usb with address := a, devState := .addressed }
            u2s := s.u2s ++ [.devState .addressed a s.usb.speed] }) ∧
      (s.usb.devState = .configured → a ≠ 0 →
        act .s2u s =
          .next { s with
            s2u := rest, usb := { s.usb with address := a }
            u2s := s.u2s ++ [.devState .configured a s.usb.speed] }) ∧
      (s.usb.devState = .addressed ∨ s.usb.devState = .configured → a = 0 →
        act .s2u s =
          .next { s with
            s2u := rest, usb := { s.usb with address := 0, devState := .default }
            u2s := s.u2s ++ [.devState .default 0 s.usb.speed] })) ∧
    (∀ v : Bool, s.s2u = .configured v :: rest →
      (s.usb.devState = .addressed → v = true →
        act .s2u s =
          .next { s with
            s2u := rest, usb := { s.usb with devState := .configured }
            u2s := s.u2s ++ [.devState .configured s.usb.address s.usb.speed] }) ∧
      (s.usb.devState = .configured → v = false →
        act .s2u s =
          .next { s with
            s2u := rest, usb := { s.usb with devState := .addressed }
            u2s := s.u2s ++ [.devState .addressed s.usb.address s.usb.speed] }) ∧
      (¬(s.usb.devState = .addressed ∧ v = true) → ¬(s.usb.devState = .configured ∧ v = false) →
        act .s2u s = .next { s with s2u := rest }))

/-- 41_device_controller.md R170, with the power-on of 70_reset_and_hazards.md R320: `dev_state` changes only along the rows
of that table. -/
def Obligations.DevStateTransitions : Prop :=
  ∀ (a : Action) (s t : State), act a s = .next t → t.usb.devState ≠ s.usb.devState →
    (a = .s2u ∧ ∃ rest,
      (s.s2u = .enable true :: rest ∧ s.usb.devState = .detached ∧ t.usb.devState = .powered) ∨
      (s.s2u = .enable false :: rest ∧ t.usb.devState = .detached) ∨
      (s.s2u = .softReset :: rest ∧ (s.usb.devState = .addressed ∨ s.usb.devState = .configured) ∧
        t.usb.devState = .default) ∨
      (∃ addr : DevAddr, addr ≠ 0 ∧ s.s2u = .address addr :: rest ∧ s.usb.devState = .default ∧
        t.usb.devState = .addressed ∧ t.usb.address = addr) ∨
      (s.s2u = .address 0 :: rest ∧ (s.usb.devState = .addressed ∨ s.usb.devState = .configured) ∧
        t.usb.devState = .default ∧ t.usb.address = 0) ∨
      (s.s2u = .configured true :: rest ∧ s.usb.devState = .addressed ∧ t.usb.devState = .configured) ∨
      (s.s2u = .configured false :: rest ∧ s.usb.devState = .configured ∧ t.usb.devState = .addressed)) ∨
    (a = .busReset ∧ s.usb.devState ≠ .detached ∧ t.usb.devState = .default) ∨
    (a = .powerOn ∧ t.usb.devState = .detached)

/-- 41_device_controller.md R175, with the power-on of 70_reset_and_hazards.md R320: the speed becomes FULL only at a handled
bus reset and NONE only at the delivery of `M_ENABLE(0)`, and no other step changes it. -/
def Obligations.SpeedChangesOnlyAtReset : Prop :=
  ∀ (a : Action) (s t : State), act a s = .next t → t.usb.speed ≠ s.usb.speed →
    (a = .busReset ∧ s.usb.devState ≠ .detached ∧ t.usb.speed = .full ∧
      ∃ ms, t.u2s = s.u2s ++ ms ∧ U2SMsg.speed ∈ ms) ∨
    (a = .s2u ∧ (∃ rest, s.s2u = .enable false :: rest) ∧ t.usb.speed = .none) ∨
    (a = .powerOn ∧ t.usb.speed = .none)

/-- 41_device_controller.md R181. That a line state equal to the present one is no change, and so sends nothing, is the
model's reading (log 7). -/
def Obligations.LineStateChange : Prop :=
  ∀ (s : State) (ls : LineState),
    (ls ≠ s.lineState → act (.lineState ls) s = .next { s with lineState := ls, u2s := s.u2s ++ [.line ls] }) ∧
    (ls = s.lineState → act (.lineState ls) s = .next s)

/-! ### Endpoint messages -/

/-- 43_in_endpoint.md R227, R228, R229, R231, each with the publishing of R232. The level is the 7-bit field of
10_state.md R51, which every reachable FIFO length fits (`State.Inv`); beyond it the length modulo 128 is the model's choice
(log 13). -/
def Obligations.InFifoMessages : Prop :=
  ∀ (s : State) (rest : List S2UMsg),
    (∀ b : Byte, s.s2u = .inPush b :: rest → s.usb.inFifo.length < s.cfg.inDepth →
      ∃ l : BitVec 7, l.toNat = s.usb.inFifo.length + 1 ∧
        act .s2u s =
          .next { s with
            s2u := rest, usb := { s.usb with inFifo := s.usb.inFifo ++ [b] }
            u2s := s.u2s ++ [.inStatus s.usb.inReady l s.usb.inOverflow] }) ∧
    (∀ b : Byte, s.s2u = .inPush b :: rest → s.cfg.inDepth ≤ s.usb.inFifo.length →
      ∃ l : BitVec 7, l.toNat = s.usb.inFifo.length % 128 ∧
        act .s2u s =
          .next { s with
            s2u := rest, usb := { s.usb with inOverflow := true }
            u2s := s.u2s ++ [.inStatus s.usb.inReady l true] }) ∧
    (∀ ep : Ep, s.s2u = .inReady ep :: rest →
      ∃ (r : Mask) (l : BitVec 7), (∀ k < 16, r.getLsbD k = (s.usb.inReady.getLsbD k || decide (k = ep.toNat))) ∧
        l.toNat = s.usb.inFifo.length % 128 ∧
        act .s2u s =
          .next { s with
            s2u := rest, usb := { s.usb with inReady := r }
            u2s := s.u2s ++ [.inStatus r l s.usb.inOverflow] }) ∧
    (∀ m : Mask, s.s2u = .inStall m :: rest →
      ∃ l : BitVec 7, l.toNat = s.usb.inFifo.length % 128 ∧
        act .s2u s =
          .next { s with
            s2u := rest, usb := { s.usb with inStall := m }
            u2s := s.u2s ++ [.inStatus s.usb.inReady l s.usb.inOverflow] }) ∧
    (s.s2u = .inFifoReset :: rest →
      act .s2u s =
        .next { s with
          s2u := rest
          usb := { s.usb with
            inFifo := [], inReady := 0, inOverflow := false
            xact := match s.usb.xact with
              | .inHandshake _ _ => .idle
              | x => x }
          u2s := s.u2s ++ [.inStatus 0 0 false] })

/-- 43_in_endpoint.md R230 (with R232), 44_out_endpoint.md R257, R258, R259: an endpoint newly enabled starts at DATA0, every
other toggle stays. The level that M_IN_EN publishes is the length modulo 128 (log 13, the model's choice; no reachable FIFO
is longer than 127). -/
def Obligations.EnableAndOutMessages : Prop :=
  ∀ (s : State) (rest : List S2UMsg),
    (∀ m : Mask, s.s2u = .inEn m :: rest →
      ∃ (g : Mask) (l : BitVec 7),
        (∀ k < 16, g.getLsbD k =
          if m.getLsbD k = true ∧ s.usb.inEn.getLsbD k = false then false else s.usb.toggleIn.getLsbD k) ∧
        l.toNat = s.usb.inFifo.length % 128 ∧
        act .s2u s =
          .next { s with
            s2u := rest, usb := { s.usb with toggleIn := g, inEn := m }
            u2s := s.u2s ++ [.inStatus s.usb.inReady l s.usb.inOverflow] }) ∧
    (∀ m : Mask, s.s2u = .outEn m :: rest →
      ∃ g : Mask,
        (∀ k < 16, g.getLsbD k =
          if m.getLsbD k = true ∧ s.usb.outEn.getLsbD k = false then false else s.usb.toggleOut.getLsbD k) ∧
        act .s2u s = .next { s with s2u := rest, usb := { s.usb with toggleOut := g, outEn := m } }) ∧
    (s.s2u = .outAck :: rest → act .s2u s = .next { s with s2u := rest, usb := { s.usb with outAvail := false } }) ∧
    (∀ m : Mask, s.s2u = .outStall m :: rest →
      act .s2u s = .next { s with s2u := rest, usb := { s.usb with outStall := m } })

/-- 41_device_controller.md R184: the delivery of `E_RESET(kind)`. -/
def Obligations.ResetDelivery : Prop :=
  ∀ (s : State) (kind : ResetKind) (rest : List U2SMsg), s.u2s = .reset kind :: rest →
    ∃ d : BitVec 2, d.getLsbD 0 = (s.sys.pending.dc.getLsbD 0 || decide (kind = .bus)) ∧
      d.getLsbD 1 = s.sys.pending.dc.getLsbD 1 ∧
      act .u2s s =
        .next { s with
          u2s := rest
          sys := { s.sys with
            setupData := ⟨0, 0, 0, 0, 0, 0, 0, 0⟩, setupReady := false, setupOverwritten := false, setupEpno := 0
            pending := { dc := d, setup := 0, inEp := 0, outEp := 0 }
            inEpnoReg := 0, inStallReg := 0, inEnReg := 1, inLastEpno := 0
            outFifo := [], outAvailSys := false, outEpno := 0, outStallReg := 0, outEnReg := 1, outStallEpno := 0 } }

/-- 42_setup.md R206: the delivery of `E_SETUP(ep, d, sc)`. -/
def Obligations.SetupDelivery : Prop :=
  ∀ (s : State) (ep : Ep) (d : SetupBytes) (sc : Bool) (rest : List U2SMsg), s.u2s = .setup ep d sc :: rest →
    ∃ ri ro : Mask,
      (∀ k < 16, ri.getLsbD k = (s.sys.inStallReg.getLsbD k && !(sc && decide (k = ep.toNat)))) ∧
      (∀ k < 16, ro.getLsbD k = (s.sys.outStallReg.getLsbD k && !(sc && decide (k = ep.toNat)))) ∧
      act .u2s s =
        .next { s with
          u2s := rest
          sys := { s.sys with
            setupOverwritten := if s.sys.setupReady = true then true else s.sys.setupOverwritten
            setupData := d, setupReady := true, setupEpno := ep
            pending := { s.sys.pending with setup := 1 }
            inStallReg := ri, outStallReg := ro } }

/-- 41_device_controller.md R182, R183, R185; 43_in_endpoint.md R233, R234, R235; 44_out_endpoint.md R260, R261: the other
deliveries. -/
def Obligations.OtherDeliveries : Prop :=
  ∀ (s : State) (rest : List U2SMsg),
    (∀ st a sp, s.u2s = .devState st a sp :: rest →
      act .u2s s = .next { s with u2s := rest, sys := { s.sys with mState := st, mAddress := a, mSpeed := sp } }) ∧
    (∀ ls, s.u2s = .line ls :: rest →
      act .u2s s = .next { s with u2s := rest, sys := { s.sys with mLine := ls } }) ∧
    (s.u2s = .speed :: rest → ∃ d : BitVec 2, d.getLsbD 0 = s.sys.pending.dc.getLsbD 0 ∧ d.getLsbD 1 = true ∧
      act .u2s s = .next { s with u2s := rest, sys := { s.sys with pending := { s.sys.pending with dc := d } } }) ∧
    (∀ r l o, s.u2s = .inStatus r l o :: rest →
      act .u2s s =
        .next { s with u2s := rest, sys := { s.sys with mInReady := r, mInLevel := l, mInOverflow := o } }) ∧
    (∀ ep, s.u2s = .inDone ep :: rest →
      ∃ d : BitVec 2, d.getLsbD 0 = true ∧ d.getLsbD 1 = s.sys.pending.inEp.getLsbD 1 ∧
      act .u2s s =
        .next { s with
          u2s := rest, sys := { s.sys with inLastEpno := ep, pending := { s.sys.pending with inEp := d } } }) ∧
    (∀ ep, s.u2s = .inStalled ep :: rest →
      ∃ d : BitVec 2, d.getLsbD 0 = s.sys.pending.inEp.getLsbD 0 ∧ d.getLsbD 1 = true ∧
      act .u2s s =
        .next { s with
          u2s := rest, sys := { s.sys with inLastEpno := ep, pending := { s.sys.pending with inEp := d } } }) ∧
    (∀ ep bytes, s.u2s = .outData ep bytes :: rest →
      ∃ d : BitVec 2, d.getLsbD 0 = true ∧ d.getLsbD 1 = s.sys.pending.outEp.getLsbD 1 ∧
      act .u2s s =
        .next { s with
          u2s := rest
          sys := { s.sys with
            outFifo := bytes, outAvailSys := true, outEpno := ep, pending := { s.sys.pending with outEp := d } } }) ∧
    (∀ ep, s.u2s = .outStalled ep :: rest →
      ∃ d : BitVec 2, d.getLsbD 0 = s.sys.pending.outEp.getLsbD 0 ∧ d.getLsbD 1 = true ∧
      act .u2s s =
        .next { s with
          u2s := rest, sys := { s.sys with outStallEpno := ep, pending := { s.sys.pending with outEp := d } } })

/-! ### Steps and decoding -/

/-- A step takes the agenda's next action, or, where the agenda is empty, the drawn one (log 1); an action whose input
decodes to an instruction runs that instruction. -/
def Obligations.StepRunsDecodedInstruction : Prop :=
  ∀ s : State,
    (∀ (a : Action) (rest : List Action), s.agenda = a :: rest → step s = act a { s with agenda := rest }) ∧
    (s.agenda = [] → step s = act (Config.draw s.draws) { s with draws := s.draws + 1 }) ∧
    (∀ (x : Input) (i : Instr), decode s.cfg.csrBase x = .ok i → act (.input x) s = exec i s) ∧
    (∀ (x : Input) (rest : List Action) (i : Instr),
      s.agenda = .input x :: rest → decode s.cfg.csrBase x = .ok i → step s = exec i { s with agenda := rest })

/-- 40_link_layer.md R148: a malformed packet is dropped with no effect. -/
def Obligations.MalformedPacketDropped : Prop :=
  ∀ (s : State) (rest : List Action) (bytes : List Byte) (err : Bool) (why : Malformed),
    s.agenda = .input (.packet bytes err) :: rest → classify bytes err = .malformed why →
      step s = .next { s with agenda := rest }

/-- 30_encoding.md R123: the access at `CSR_BASE + 0x1000 * w + off` is the access of the register at offset `off` of window
`w`. -/
def Obligations.RegisterAtItsAddress : Prop :=
  ∀ (s : State) (rest : List Action) (r : Reg) (a v : Word),
    a.toNat = s.cfg.csrBase.toNat + 0x1000 * r.window.number.toNat + r.offset.toNat →
    (s.agenda = .input (.csrRead a) :: rest → step s = exec r.readInstr { s with agenda := rest }) ∧
    (s.agenda = .input (.csrWrite a v) :: rest →
      step s = exec (r.writeInstr v) { s with agenda := rest })

/-- 20_memory.md R83, R84: an aligned access outside the windows, or at an offset that names no register, completes: a read
returns 0 and a write changes nothing. -/
def Obligations.BusMissCompletes : Prop :=
  ∀ (s : State) (rest : List Action) (a v : Word), a.toNat % 4 = 0 →
    (∀ r : Reg, a.toNat ≠ s.cfg.csrBase.toNat + 0x1000 * r.window.number.toNat + r.offset.toNat) →
    (s.agenda = .input (.csrRead a) :: rest →
      step s = .next { s with agenda := rest, readLog := s.readLog ++ [0] }) ∧
    (s.agenda = .input (.csrWrite a v) :: rest → step s = .next { s with agenda := rest })

/-- 20_memory.md R88: a misaligned access is refused. -/
def Obligations.MisalignedAccessRefused : Prop :=
  ∀ (s : State) (rest : List Action) (a v : Word), a.toNat % 4 ≠ 0 →
    (s.agenda = .input (.csrRead a) :: rest → step s = .refused .misaligned) ∧
    (s.agenda = .input (.csrWrite a v) :: rest → step s = .refused .misaligned)

/-- 60_exceptions.md R295: every step has a next state, but for a misaligned access. -/
def Obligations.EveryStepCompletes : Prop :=
  ∀ s : State, (∃ t, step s = .next t) ∨
    (step s = .refused .misaligned ∧
      ∃ a v : Word, a.toNat % 4 ≠ 0 ∧ (s.fetch.1 = .input (.csrRead a) ∨ s.fetch.1 = .input (.csrWrite a v)))

/-- Decoding an encoded instruction gives it back: every packet, with every operand, and every register that has an address,
wherever `CSR_BASE` stands (20_memory.md R81, R82). Up to 0xFFFFC000 every register has one. -/
def Obligations.DecodeEncode : Prop :=
  ∀ (c : Config) (i : Instr),
    (i.encodable c.csrBase = true → decode c.csrBase (encode c.csrBase i) = .ok i) ∧
    (c.csrBase.toNat ≤ 0xFFFFC000 → i.encodable c.csrBase = true)

/-- Every input that decodes to an instruction is that instruction's one encoding. The bytes after a special PID are part of
the encoding because the model keeps them as an operand (log 14); 40_link_layer.md R147 does not tell two such packets
apart. -/
def Obligations.EncodeDecode : Prop :=
  ∀ (c : Config) (x : Input) (i : Instr), decode c.csrBase x = .ok i →
    encode c.csrBase i = x ∧ i.encodable c.csrBase = true

/-- Words written out from 30_encoding.md R111, R113 to R118, R123 and 10_state.md R55 to R59 (some of them vectors of
95_test_vectors.md sections 2.1, 2.2, 2.9) decode to what they stand for, with `CSR_BASE` = 0x80000000, and with `CSR_BASE` =
0xFFFFF000 for two accesses at the end of the address space. That the bytes after PRE are kept is the model's choice
(log 14). -/
def Obligations.WrittenOutWordsDecode : Prop :=
  decode 0x80000000 (.packet [0xE1, 0x85, 0x60] false) = .ok (.pidOut 5 1) ∧
  decode 0x80000000 (.packet [0x69, 0x05, 0xD0] false) = .ok (.pidIn 5 0) ∧
  decode 0x80000000 (.packet [0x4B, 0x03, 0x00, 0xBE] false) = .ok (.pidData1 [3]) ∧
  decode 0x80000000 (.packet [0xD2] false) = .ok .pidAck ∧
  decode 0x80000000 (.packet [0x3C, 1, 2] false) = .ok (.pidPreErr [1, 2]) ∧
  decode 0x80000000 (.csrRead 0x80000018) = .ok .rDcSpeed ∧
  decode 0x80000000 (.csrRead 0x8000102C) = .ok .rSetupData7 ∧
  decode 0x80000000 (.csrWrite 0x80002010 7) = .ok (.wInData 7) ∧
  decode 0x80000000 (.csrWrite 0x80003004 3) = .ok (.wOutEvEnable 3) ∧
  decode 0xFFFFF000 (.csrRead 0xFFFFF018) = .ok .rDcSpeed ∧
  decode 0xFFFFF000 (.csrRead 0x00000030) = .error .noDevice

/-! ### The whole machine -/

/-- 10_state.md R61 and R43: the state after power-on reset, and that the release of power-on reset gives its two domains and
channels from any state (70_reset_and_hazards.md R320). That the line state, the parameters, the agenda, the draws and what
has been sent and read stay as they are at that release is the model's choice (log 10). -/
def Obligations.ResetValues : Prop :=
  State.reset.usb =
    { devState := .detached, address := 0, speed := .none, toggleIn := 0, toggleOut := 0, inStall := 0, outStall := 0,
      inEn := 1, outEn := 1, inFifo := [], inReady := 0, inOverflow := false, outAvail := false, xact := .idle } ∧
  State.reset.sys =
    { pending := ⟨0, 0, 0, 0⟩, enable := ⟨0, 0, 0, 0⟩, setupData := ⟨0, 0, 0, 0, 0, 0, 0, 0⟩, setupReady := false,
      setupOverwritten := false, setupEpno := 0, mState := .detached, mAddress := 0, mSpeed := .none, mLine := .se0,
      inEpnoReg := 0, inStallReg := 0, inEnReg := 1, inLastEpno := 0, mInReady := 0, mInLevel := 0,
      mInOverflow := false, outFifo := [], outAvailSys := false, outEpno := 0, outStallReg := 0, outEnReg := 1,
      outStallEpno := 0 } ∧
  State.reset.s2u = [] ∧ State.reset.u2s = [] ∧
  ∀ s : State,
    act .powerOn s =
      .next { s with usb := State.reset.usb, sys := State.reset.sys, s2u := [], u2s := [] }

/-- 10_state.md R53: a step keeps the invariants. -/
def Obligations.StepKeepsInv : Prop := ∀ s t : State, step s = .next t → s.Inv → t.Inv

/-- 60_exceptions.md R311: every step keeps the mirrors on course to the USB-domain values. -/
def Obligations.StepKeepsMirrorsFollow : Prop := ∀ s t : State, step s = .next t → s.MirrorsFollow → t.MirrorsFollow

/-- 44_out_endpoint.md R260, R262: while no core clear is made or in flight, the one stored OUT packet is neither lost nor
doubled: `out_avail` is 1 exactly while the packet is on its way, in the FIFO, or acknowledged and not yet re-armed. -/
def Obligations.StepKeepsOutConserved : Prop :=
  ∀ (a : Action) (s t : State), act a s = .next t → s.noClear a = true → s.OutConserved → t.OutConserved

/-- 44_out_endpoint.md R260: with the packet conserved, `out_avail_sys` is 0 whenever `E_OUT_DATA` is delivered, so no unread
packet is replaced; and `out_avail` equals `out_avail_sys` in a quiescent state (60_exceptions.md R311). -/
def Obligations.NoUnreadPacketReplaced : Prop :=
  ∀ s : State, s.OutConserved →
    (∀ ep d rest, s.u2s = .outData ep d :: rest → s.sys.outAvailSys = false) ∧
    (s.quiescent = true → s.usb.outAvail = s.sys.outAvailSys)

/-- The reset state meets the three invariants. -/
def Obligations.ResetMeetsInvariants : Prop :=
  State.reset.Inv ∧ State.reset.MirrorsFollow ∧ State.reset.OutConserved

/-- 10_state.md R29: no step writes the parameters. -/
def Obligations.ConfigurationNeverWritten : Prop := ∀ s t : State, step s = .next t → t.cfg = s.cfg

/-- 10_state.md R20: apart from power-on, a step of `FW` or `U2S` neither reads nor writes the USB-domain state, and a step of
`HOST`/`USB` or `S2U` neither reads nor writes the system-domain state. -/
def Obligations.DomainsIsolated : Prop :=
  ∀ (a : Action) (s t : State), act a s = .next t → a ≠ .powerOn →
    ((isFw a = true ∨ a = .u2s) →
      t.usb = s.usb ∧ ∀ u : Usb, act a { s with usb := u } = .next { t with usb := u }) ∧
    (isFw a = false → a ≠ .u2s →
      t.sys = s.sys ∧ ∀ y : Sys, act a { s with sys := y } = .next { t with sys := y })

/-- 20_memory.md R92: apart from power-on, a channel loses only its head, only in a step of its agent, and gains only at its
tail; only `FW` sends on `s2u`. The one exception is the flush of 41_device_controller.md R174. -/
def Obligations.ChannelsAppendOnly : Prop :=
  ∀ (a : Action) (s t : State), act a s = .next t → a ≠ .powerOn →
    (∃ ms, t.u2s = (if a = .u2s then s.u2s.tail else s.u2s) ++ ms ∧ (isFw a = true ∨ a = .u2s → ms = [])) ∧
    ((∃ ms, t.s2u = (if a = .s2u then s.s2u.tail else s.s2u) ++ ms ∧ (isFw a = false → ms = [])) ∨
      (a = .busReset ∧ s.usb.devState ≠ .detached ∧ s.cfg.s2uFlushOnReset = true ∧ t.s2u = []))

/-- 20_memory.md R92: `k` steps of `U2S`, or of `S2U`, deliver the `k` oldest messages of the channel, in order, each once. -/
def Obligations.ChannelsDeliverInOrder : Prop :=
  ∀ (k : Nat) (s : State) (rest : List Action),
    (s.agenda = List.replicate k .u2s ++ rest → k ≤ s.u2s.length →
      Host.Core.run Sys2Proof.core k s =
        .next ({ s with
          agenda := rest, u2s := s.u2s.drop k
          sys := (s.u2s.take k).foldl (fun y m => y.take m) s.sys } : State)) ∧
    (s.agenda = List.replicate k .s2u ++ rest → k ≤ s.s2u.length →
      Host.Core.run Sys2Proof.core k s =
        .next ((s.s2u.take k).foldl (fun t m => applyS2U m t) { s with agenda := rest, s2u := s.s2u.drop k } : State))

/-- 40_link_layer.md R151 and 30_encoding.md R121: what the core sends, and when. -/
def Obligations.TransmitsOnlyAnswers : Prop :=
  ∀ (a : Action) (s t : State), act a s = .next t → t.txLog ≠ s.txLog →
    ∃ (p bytes : List Byte) (i : Instr),
      t.txLog = s.txLog ++ [p] ∧ legalTx p ∧ a = .input (.packet bytes false) ∧
      decode s.cfg.csrBase (.packet bytes false) = .ok i ∧
      ((∃ addr ep, i = .pidIn addr ep) ∨
        ((∃ payload, i = .pidData0 payload ∨ i = .pidData1 payload) ∧ (p = [0xD2] ∨ p = [0x5A] ∨ p = [0x1E])))

/-- 45_event_aggregator.md R281: which delivery sets which pending bit, and what else can clear one. -/
def Obligations.PendingBitsSetByDeliveries : Prop :=
  (∀ (s t : State) (m : U2SMsg) (rest : List U2SMsg), s.u2s = m :: rest → act .u2s s = .next t →
    t.sys.pending.dc.getLsbD 0 = (s.sys.pending.dc.getLsbD 0 || decide (m = .reset .bus)) ∧
    t.sys.pending.dc.getLsbD 1 = (s.sys.pending.dc.getLsbD 1 || decide (m = .speed)) ∧
    (t.sys.pending.setup.getLsbD 0 = true ↔
      (s.sys.pending.setup.getLsbD 0 = true ∧ m.isReset = false) ∨ ∃ ep d sc, m = .setup ep d sc) ∧
    (t.sys.pending.inEp.getLsbD 0 = true ↔
      (s.sys.pending.inEp.getLsbD 0 = true ∧ m.isReset = false) ∨ ∃ ep, m = .inDone ep) ∧
    (t.sys.pending.inEp.getLsbD 1 = true ↔
      (s.sys.pending.inEp.getLsbD 1 = true ∧ m.isReset = false) ∨ ∃ ep, m = .inStalled ep) ∧
    (t.sys.pending.outEp.getLsbD 0 = true ↔
      (s.sys.pending.outEp.getLsbD 0 = true ∧ m.isReset = false) ∨ ∃ ep d, m = .outData ep d) ∧
    (t.sys.pending.outEp.getLsbD 1 = true ↔
      (s.sys.pending.outEp.getLsbD 1 = true ∧ m.isReset = false) ∨ ∃ ep, m = .outStalled ep)) ∧
  (∀ (a : Action) (s t : State), act a s = .next t → a ≠ .u2s → a ≠ .powerOn → t.sys.pending ≠ s.sys.pending →
    ∃ (ad v : Word) (i : Instr), a = .input (.csrWrite ad v) ∧ decode s.cfg.csrBase (.csrWrite ad v) = .ok i ∧
      i ∈ [Instr.wDcEvPending v, .wSetupEvPending v, .wInEvPending v, .wOutEvPending v] ∧
      (∀ k < 2, t.sys.pending.dc.getLsbD k = true → s.sys.pending.dc.getLsbD k = true) ∧
      (t.sys.pending.setup.getLsbD 0 = true → s.sys.pending.setup.getLsbD 0 = true) ∧
      (∀ k < 2, t.sys.pending.inEp.getLsbD k = true → s.sys.pending.inEp.getLsbD k = true) ∧
      (∀ k < 2, t.sys.pending.outEp.getLsbD k = true → s.sys.pending.outEp.getLsbD k = true))

/-- 60_exceptions.md R296: a stall bit is cleared only by the mask firmware writes, by a core clear, by power-on, or, if
`SETUP_CLEARS_STALL` is true, by a SETUP to its endpoint (42_setup.md R204). -/
def Obligations.StallPersists : Prop :=
  ∀ (a : Action) (s t : State) (ep : Ep), act a s = .next t →
    (s.usb.inStall.getLsbD ep.toNat = true → t.usb.inStall.getLsbD ep.toNat = false →
      (a = .s2u ∧ ∃ rest,
        (∃ m : Mask, m.getLsbD ep.toNat = false ∧ s.s2u = .inStall m :: rest) ∨
        s.s2u = .enable false :: rest ∨ s.s2u = .softReset :: rest) ∨
      a = .busReset ∨ a = .powerOn ∨
      (s.cfg.setupClearsStall = true ∧ s.usb.xact = .setupData ep ∧ t.txLog = s.txLog ++ [[0xD2]])) ∧
    (s.usb.outStall.getLsbD ep.toNat = true → t.usb.outStall.getLsbD ep.toNat = false →
      (a = .s2u ∧ ∃ rest,
        (∃ m : Mask, m.getLsbD ep.toNat = false ∧ s.s2u = .outStall m :: rest) ∨
        s.s2u = .enable false :: rest ∨ s.s2u = .softReset :: rest) ∨
      a = .busReset ∨ a = .powerOn ∨
      (s.cfg.setupClearsStall = true ∧ s.usb.xact = .setupData ep ∧ t.txLog = s.txLog ++ [[0xD2]]))

/-- 10_state.md R35 and property S5 of 95_test_vectors.md: an endpoint's IN toggle flips at the commit of its transfer
(43_in_endpoint.md R225), and otherwise changes only to DATA1 at a SETUP to the endpoint (42_setup.md R203), to DATA0 when the
endpoint is newly enabled (43_in_endpoint.md R230), and to DATA0 at a core clear (41_device_controller.md R171) or power-on. -/
def Obligations.InToggleChanges : Prop :=
  ∀ (a : Action) (s t : State) (ep : Ep), act a s = .next t →
    t.usb.toggleIn.getLsbD ep.toNat ≠ s.usb.toggleIn.getLsbD ep.toNat →
    (a = .input (.packet [0xD2] false) ∧ ∃ n, s.usb.xact = .inHandshake ep n) ∨
    (t.usb.toggleIn.getLsbD ep.toNat = true ∧ s.usb.xact = .setupData ep ∧ t.txLog = s.txLog ++ [[0xD2]]) ∨
    (t.usb.toggleIn.getLsbD ep.toNat = false ∧
      ((a = .s2u ∧ ∃ rest,
        (∃ m : Mask, s.s2u = .inEn m :: rest ∧ m.getLsbD ep.toNat = true ∧ s.usb.inEn.getLsbD ep.toNat = false) ∨
        s.s2u = .enable false :: rest ∨ s.s2u = .softReset :: rest) ∨
      a = .busReset ∨ a = .powerOn))

/-- 42_setup.md R213: the SETUP bytes change only in a delivery of `E_SETUP`, which leaves `setup_ready` set, or in a reset;
and `setup_ready` falls only by a write of `SETUP.ACK` or in a reset. So firmware that writes `SETUP.ACK`, reads the bytes and
then reads `READY = 0` has, without a reset between, read one packet. -/
def Obligations.SetupChangeIsDetectable : Prop :=
  ∀ (a : Action) (s t : State), act a s = .next t →
    (t.sys.setupData ≠ s.sys.setupData →
      (a = .u2s ∧ (∃ ep sc rest, s.u2s = .setup ep t.sys.setupData sc :: rest) ∧ t.sys.setupReady = true) ∨
      (a = .u2s ∧ ∃ kind rest, s.u2s = .reset kind :: rest) ∨ a = .powerOn) ∧
    (s.sys.setupReady = true → t.sys.setupReady = false →
      (∃ v : Word, a = .input (encode s.cfg.csrBase (.wSetupAck v))) ∨ (a = .u2s ∧ ∃ kind rest, s.u2s = .reset kind :: rest) ∨
      a = .powerOn)

/-- Property S2 of 95_test_vectors.md (42_setup.md R206, 45_event_aggregator.md R288): of two SETUPs delivered one after the
other with no acknowledge between, the second's bytes remain, the overwrite is recorded, and one pending bit is set. -/
def Obligations.LastSetupWins : Prop :=
  ∀ (s : State) (rest : List Action) (e1 e2 : Ep) (d1 d2 : SetupBytes) (c1 c2 : Bool) (more : List U2SMsg),
    s.agenda = .u2s :: .u2s :: rest → s.u2s = .setup e1 d1 c1 :: .setup e2 d2 c2 :: more →
    ∃ t : State, Host.Core.run Sys2Proof.core 2 s = .next t ∧ t.sys.setupData = d2 ∧ t.sys.setupEpno = e2 ∧
      t.sys.setupReady = true ∧ t.sys.setupOverwritten = true ∧ t.sys.pending = { s.sys.pending with setup := 1 }

/-- 20_memory.md R94: in a fair run every message in a channel is delivered after finitely many steps, unless power-on reset
or, on `s2u`, the flush of 41_device_controller.md R174 empties the channel first. -/
def Obligations.FairRunsDeliver : Prop :=
  ∀ (σ : Nat → Action) (r : Nat → State), Run σ r → Fair σ r →
    (∀ n before m behind, (r n).u2s = before ++ m :: behind →
      ∃ k, n ≤ k ∧ ((σ k = .u2s ∧ ∃ more, (r k).u2s = m :: (behind ++ more)) ∨ σ k = .powerOn)) ∧
    (∀ n before m behind, (r n).s2u = before ++ m :: behind →
      ∃ k, n ≤ k ∧ ((σ k = .s2u ∧ ∃ more, (r k).s2u = m :: (behind ++ more)) ∨ σ k = .powerOn ∨
        (r k).flushes (σ k)))
end

