-- ==== Sys2Proof/Laws/Decode.lean ====
section
/-! SUPPORT. The decoder's tables: the PID table is a bijection, and each register is decoded at its one address, if it
has one. -/

namespace Sys2Proof

theorem ofNibble_nibble (p : Pid) : Pid.ofNibble p.nibble = p := by
  rcases p with p | _ | p | p | p <;> first | rfl | (cases p <;> rfl)

theorem nibble_ofNibble : ∀ n : BitVec 4, (Pid.ofNibble n).nibble = n := by decide

/-- Every PID byte passes the check of 30_encoding.md R110. -/
theorem pidByte_check (p : Pid) : p.byte.extractLsb' 4 4 = ~~~(p.byte.extractLsb' 0 4) := by
  rcases p with p | _ | p | p | p <;> first | rfl | (cases p <;> rfl)

theorem pidByte_nibble (p : Pid) : p.byte.extractLsb' 0 4 = p.nibble := by
  rcases p with p | _ | p | p | p <;> first | rfl | (cases p <;> rfl)

/-- A byte that passes the check is the PID byte of its identifier. -/
theorem byte_of_check : ∀ b : Byte, b.extractLsb' 4 4 = ~~~(b.extractLsb' 0 4) →
    (Pid.ofNibble (b.extractLsb' 0 4)).byte = b := by decide

theorem at?_of_reg (r : Reg) : Reg.at? r.window.number r.offset = some r := by cases r <;> rfl

/-- What the decoder finds at an offset stands at that offset. -/
theorem at?_spec {w : BitVec 2} {o : BitVec 12} {r : Reg} (h : Reg.at? w o = some r) :
    r.window.number = w ∧ r.offset = o := by
  simpa [Reg.at?] using List.find?_some h

/-! ### Joining and splitting bit vectors -/

theorem append_extractLsb' {m n : Nat} (x : BitVec (m + n)) : x.extractLsb' n m ++ x.extractLsb' 0 n = x := by
  apply BitVec.eq_of_getLsbD_eq
  intro i hi
  rw [BitVec.getLsbD_append]
  split
  · rw [BitVec.getLsbD_extractLsb']
    simp_all
  · rw [BitVec.getLsbD_extractLsb', decide_eq_true (by omega), show n + (i - n) = i by omega]
    simp

theorem extractLsb'_append_low {m n : Nat} (x : BitVec m) (y : BitVec n) : (x ++ y).extractLsb' 0 n = y := by
  apply BitVec.eq_of_getLsbD_eq
  intro i hi
  rw [BitVec.getLsbD_extractLsb', BitVec.getLsbD_append]
  simp [hi]

theorem extractLsb'_append_high {m n : Nat} (x : BitVec m) (y : BitVec n) : (x ++ y).extractLsb' n m = x := by
  apply BitVec.eq_of_getLsbD_eq
  intro i hi
  rw [BitVec.getLsbD_extractLsb', BitVec.getLsbD_append, decide_eq_true hi, if_neg (by omega),
    show n + i - n = i by omega]
  simp

/-! ### Bus addresses -/

theorem busOff_toNat (r : Reg) : r.busOff.toNat = 0x1000 * r.window.number.toNat + r.offset.toNat := by cases r <;> rfl

theorem busOff_lt (r : Reg) : r.busOff.toNat < 0x4000 := by cases r <;> decide

/-- The window and offset fields of a displacement below 16 KiB are all of it. -/
theorem join_fields {off : Word} (h : off.toNat < 0x4000) :
    ((off.extractLsb' 12 2 ++ off.extractLsb' 0 12 : BitVec 14)).setWidth 32 = off := by
  apply BitVec.eq_of_toNat_eq
  have h4 := Nat.shiftLeft_add_eq_or_of_lt (show off.toNat % 4096 < 2 ^ 12 by omega) (off.toNat / 4096 % 4)
  rw [BitVec.toNat_setWidth, BitVec.toNat_append, BitVec.extractLsb'_toNat, BitVec.extractLsb'_toNat,
    Nat.shiftRight_eq_div_pow, Nat.shiftRight_eq_div_pow]
  norm_num
  rw [← h4, Nat.shiftLeft_eq]
  omega

/-- What the decoder finds at an address stands at that address, at or above `CSR_BASE`. -/
theorem busTarget_eq_reg {base a : Word} {r : Reg} (h : busTarget base a = .reg r) :
    a = r.busAddr base ∧ base.toNat ≤ a.toNat := by
  simp only [busTarget] at h
  split at h
  · cases h
  · rename_i hlt
    split at h
    · rename_i r' hr
      cases h
      obtain ⟨h1, h2⟩ := at?_spec hr
      refine ⟨?_, by omega⟩
      rw [Reg.busAddr, Reg.busOff, h1, h2, join_fields (by omega), BitVec.add_comm, BitVec.sub_add_cancel]
    · cases h

theorem busAddr_sub (base : Word) (r : Reg) : r.busAddr base - base = r.busOff := by
  rw [Reg.busAddr, BitVec.add_comm, BitVec.add_sub_cancel]

/-- A register that has an address is decoded there. -/
theorem busTarget_busAddr {base : Word} {r : Reg} (h : base.toNat ≤ (r.busAddr base).toNat) :
    busTarget base (r.busAddr base) = .reg r := by
  have h1 := busOff_lt r
  simp only [busTarget, busAddr_sub]
  rw [if_neg (by omega)]
  cases r <;> rfl

/-- A register has an address exactly if the sum of `CSR_BASE` and its displacement fits 32 bits. -/
theorem le_busAddr_iff (base : Word) (r : Reg) :
    base.toNat ≤ (r.busAddr base).toNat ↔ base.toNat + r.busOff.toNat < 2 ^ 32 := by
  have h1 := busOff_lt r
  have h2 := base.isLt
  rw [Reg.busAddr, BitVec.toNat_add]
  omega

theorem busAddr_toNat {base : Word} {r : Reg} (h : base.toNat + r.busOff.toNat < 2 ^ 32) :
    (r.busAddr base).toNat = base.toNat + r.busOff.toNat := by
  rw [Reg.busAddr, BitVec.toNat_add, Nat.mod_eq_of_lt h]

theorem csrBase_toNat (c : Config) : c.csrBase.toNat = 0x1000 * c.csrPage.toNat := by
  have := c.csrPage.isLt
  rw [Config.csrBase, BitVec.toNat_append]
  simp only [Nat.or_zero, Nat.shiftLeft_eq, show (0 : BitVec 12).toNat = 0 from rfl]
  omega

theorem alignedAddr_iff (a : Word) : alignedAddr a = true ↔ a.toNat % 4 = 0 := by
  simp [alignedAddr, beq_iff_eq, BitVec.toNat_eq, BitVec.extractLsb'_toNat]

theorem alignedAddr_busAddr (c : Config) (r : Reg) : alignedAddr (r.busAddr c.csrBase) = true := by
  have h : r.busOff.toNat % 4 = 0 := by cases r <;> rfl
  have hb := csrBase_toNat c
  rw [alignedAddr_iff, Reg.busAddr, BitVec.toNat_add]
  omega

/-- A decoded access is the access of the register at its address. -/
theorem decodeAccess_ok {base a : Word} {sel : Reg → Instr} {i : Instr} (h : decodeAccess base a sel = .ok i) :
    ∃ r : Reg, a = r.busAddr base ∧ base.toNat ≤ a.toNat ∧ i = sel r := by
  unfold decodeAccess at h
  split at h
  · cases h
  · split at h
    · rename_i r hr
      cases h
      obtain ⟨h1, h2⟩ := busTarget_eq_reg hr
      exact ⟨r, h1, h2, rfl⟩
    · cases h
    · cases h

/-- The access of a register that has an address decodes to it. -/
theorem decodeAccess_busAddr {c : Config} {r : Reg} (sel : Reg → Instr)
    (h : c.csrBase.toNat ≤ (r.busAddr c.csrBase).toNat) : decodeAccess c.csrBase (r.busAddr c.csrBase) sel = .ok (sel r) := by
  rw [decodeAccess, if_neg (by rw [alignedAddr_busAddr]; decide), busTarget_busAddr h]

theorem encode_readInstr (base : Word) (r : Reg) : encode base r.readInstr = .csrRead (r.busAddr base) := by
  cases r <;> rfl

theorem encode_writeInstr (base : Word) (r : Reg) (v : Word) :
    encode base (r.writeInstr v) = .csrWrite (r.busAddr base) v := by
  cases r <;> rfl

/-- A received packet decodes to the same thing wherever the registers stand. -/
theorem decode_packet_base (base base' : Word) (bytes : List Byte) (err : Bool) :
    decode base (.packet bytes err) = decode base' (.packet bytes err) := rfl

end Sys2Proof
end

