-- ==== Sys2Proof/Laws/State.lean ====
section
/-! SUPPORT. What each update of State leaves in each field: one lemma per field per operation, all by rfl. -/

namespace Sys2Proof.Machine

open Sys2Proof

variable (s : State)

@[simp] theorem State.sendS2U_usb (m : S2UMsg) : (s.sendS2U m).usb = s.usb := rfl
@[simp] theorem State.sendS2U_sys (m : S2UMsg) : (s.sendS2U m).sys = s.sys := rfl
@[simp] theorem State.sendS2U_s2u (m : S2UMsg) : (s.sendS2U m).s2u = s.s2u ++ [m] := rfl
@[simp] theorem State.sendS2U_u2s (m : S2UMsg) : (s.sendS2U m).u2s = s.u2s := rfl
@[simp] theorem State.sendS2U_lineState (m : S2UMsg) : (s.sendS2U m).lineState = s.lineState := rfl
@[simp] theorem State.sendS2U_txLog (m : S2UMsg) : (s.sendS2U m).txLog = s.txLog := rfl
@[simp] theorem State.sendS2U_readLog (m : S2UMsg) : (s.sendS2U m).readLog = s.readLog := rfl
@[simp] theorem State.sendS2U_cfg (m : S2UMsg) : (s.sendS2U m).cfg = s.cfg := rfl
@[simp] theorem State.sendS2U_agenda (m : S2UMsg) : (s.sendS2U m).agenda = s.agenda := rfl
@[simp] theorem State.sendS2U_draws (m : S2UMsg) : (s.sendS2U m).draws = s.draws := rfl

@[simp] theorem State.sendU2S_usb (m : U2SMsg) : (s.sendU2S m).usb = s.usb := rfl
@[simp] theorem State.sendU2S_sys (m : U2SMsg) : (s.sendU2S m).sys = s.sys := rfl
@[simp] theorem State.sendU2S_s2u (m : U2SMsg) : (s.sendU2S m).s2u = s.s2u := rfl
@[simp] theorem State.sendU2S_u2s (m : U2SMsg) : (s.sendU2S m).u2s = s.u2s ++ [m] := rfl
@[simp] theorem State.sendU2S_lineState (m : U2SMsg) : (s.sendU2S m).lineState = s.lineState := rfl
@[simp] theorem State.sendU2S_txLog (m : U2SMsg) : (s.sendU2S m).txLog = s.txLog := rfl
@[simp] theorem State.sendU2S_readLog (m : U2SMsg) : (s.sendU2S m).readLog = s.readLog := rfl
@[simp] theorem State.sendU2S_cfg (m : U2SMsg) : (s.sendU2S m).cfg = s.cfg := rfl
@[simp] theorem State.sendU2S_agenda (m : U2SMsg) : (s.sendU2S m).agenda = s.agenda := rfl
@[simp] theorem State.sendU2S_draws (m : U2SMsg) : (s.sendU2S m).draws = s.draws := rfl

@[simp] theorem State.tx_usb (p : List Byte) : (s.tx p).usb = s.usb := rfl
@[simp] theorem State.tx_sys (p : List Byte) : (s.tx p).sys = s.sys := rfl
@[simp] theorem State.tx_s2u (p : List Byte) : (s.tx p).s2u = s.s2u := rfl
@[simp] theorem State.tx_u2s (p : List Byte) : (s.tx p).u2s = s.u2s := rfl
@[simp] theorem State.tx_lineState (p : List Byte) : (s.tx p).lineState = s.lineState := rfl
@[simp] theorem State.tx_txLog (p : List Byte) : (s.tx p).txLog = s.txLog ++ [p] := rfl
@[simp] theorem State.tx_readLog (p : List Byte) : (s.tx p).readLog = s.readLog := rfl
@[simp] theorem State.tx_cfg (p : List Byte) : (s.tx p).cfg = s.cfg := rfl
@[simp] theorem State.tx_agenda (p : List Byte) : (s.tx p).agenda = s.agenda := rfl
@[simp] theorem State.tx_draws (p : List Byte) : (s.tx p).draws = s.draws := rfl

@[simp] theorem State.returnRead_usb (v : Word) : (s.returnRead v).usb = s.usb := rfl
@[simp] theorem State.returnRead_sys (v : Word) : (s.returnRead v).sys = s.sys := rfl
@[simp] theorem State.returnRead_s2u (v : Word) : (s.returnRead v).s2u = s.s2u := rfl
@[simp] theorem State.returnRead_u2s (v : Word) : (s.returnRead v).u2s = s.u2s := rfl
@[simp] theorem State.returnRead_lineState (v : Word) : (s.returnRead v).lineState = s.lineState := rfl
@[simp] theorem State.returnRead_txLog (v : Word) : (s.returnRead v).txLog = s.txLog := rfl
@[simp] theorem State.returnRead_readLog (v : Word) : (s.returnRead v).readLog = s.readLog ++ [v] := rfl
@[simp] theorem State.returnRead_cfg (v : Word) : (s.returnRead v).cfg = s.cfg := rfl
@[simp] theorem State.returnRead_agenda (v : Word) : (s.returnRead v).agenda = s.agenda := rfl
@[simp] theorem State.returnRead_draws (v : Word) : (s.returnRead v).draws = s.draws := rfl

@[simp] theorem State.modUsb_usb (f : Usb → Usb) : (s.modUsb f).usb = f s.usb := rfl
@[simp] theorem State.modUsb_sys (f : Usb → Usb) : (s.modUsb f).sys = s.sys := rfl
@[simp] theorem State.modUsb_s2u (f : Usb → Usb) : (s.modUsb f).s2u = s.s2u := rfl
@[simp] theorem State.modUsb_u2s (f : Usb → Usb) : (s.modUsb f).u2s = s.u2s := rfl
@[simp] theorem State.modUsb_lineState (f : Usb → Usb) : (s.modUsb f).lineState = s.lineState := rfl
@[simp] theorem State.modUsb_txLog (f : Usb → Usb) : (s.modUsb f).txLog = s.txLog := rfl
@[simp] theorem State.modUsb_readLog (f : Usb → Usb) : (s.modUsb f).readLog = s.readLog := rfl
@[simp] theorem State.modUsb_cfg (f : Usb → Usb) : (s.modUsb f).cfg = s.cfg := rfl
@[simp] theorem State.modUsb_agenda (f : Usb → Usb) : (s.modUsb f).agenda = s.agenda := rfl
@[simp] theorem State.modUsb_draws (f : Usb → Usb) : (s.modUsb f).draws = s.draws := rfl

@[simp] theorem State.modSys_usb (f : Sys → Sys) : (s.modSys f).usb = s.usb := rfl
@[simp] theorem State.modSys_sys (f : Sys → Sys) : (s.modSys f).sys = f s.sys := rfl
@[simp] theorem State.modSys_s2u (f : Sys → Sys) : (s.modSys f).s2u = s.s2u := rfl
@[simp] theorem State.modSys_u2s (f : Sys → Sys) : (s.modSys f).u2s = s.u2s := rfl
@[simp] theorem State.modSys_lineState (f : Sys → Sys) : (s.modSys f).lineState = s.lineState := rfl
@[simp] theorem State.modSys_txLog (f : Sys → Sys) : (s.modSys f).txLog = s.txLog := rfl
@[simp] theorem State.modSys_readLog (f : Sys → Sys) : (s.modSys f).readLog = s.readLog := rfl
@[simp] theorem State.modSys_cfg (f : Sys → Sys) : (s.modSys f).cfg = s.cfg := rfl
@[simp] theorem State.modSys_agenda (f : Sys → Sys) : (s.modSys f).agenda = s.agenda := rfl
@[simp] theorem State.modSys_draws (f : Sys → Sys) : (s.modSys f).draws = s.draws := rfl

@[simp] theorem State.setXact_usb (x : Xact) : (s.setXact x).usb = { s.usb with xact := x } := rfl
@[simp] theorem State.setXact_sys (x : Xact) : (s.setXact x).sys = s.sys := rfl
@[simp] theorem State.setXact_s2u (x : Xact) : (s.setXact x).s2u = s.s2u := rfl
@[simp] theorem State.setXact_u2s (x : Xact) : (s.setXact x).u2s = s.u2s := rfl
@[simp] theorem State.setXact_lineState (x : Xact) : (s.setXact x).lineState = s.lineState := rfl
@[simp] theorem State.setXact_txLog (x : Xact) : (s.setXact x).txLog = s.txLog := rfl
@[simp] theorem State.setXact_readLog (x : Xact) : (s.setXact x).readLog = s.readLog := rfl
@[simp] theorem State.setXact_cfg (x : Xact) : (s.setXact x).cfg = s.cfg := rfl
@[simp] theorem State.setXact_agenda (x : Xact) : (s.setXact x).agenda = s.agenda := rfl
@[simp] theorem State.setXact_draws (x : Xact) : (s.setXact x).draws = s.draws := rfl

@[simp] theorem sendDevState_usb : (sendDevState s).usb = s.usb := rfl
@[simp] theorem sendDevState_sys : (sendDevState s).sys = s.sys := rfl
@[simp] theorem sendDevState_s2u : (sendDevState s).s2u = s.s2u := rfl
@[simp] theorem sendDevState_u2s : (sendDevState s).u2s = s.u2s ++ [.devState s.usb.devState s.usb.address s.usb.speed] := rfl
@[simp] theorem sendDevState_lineState : (sendDevState s).lineState = s.lineState := rfl
@[simp] theorem sendDevState_txLog : (sendDevState s).txLog = s.txLog := rfl
@[simp] theorem sendDevState_readLog : (sendDevState s).readLog = s.readLog := rfl
@[simp] theorem sendDevState_cfg : (sendDevState s).cfg = s.cfg := rfl
@[simp] theorem sendDevState_agenda : (sendDevState s).agenda = s.agenda := rfl
@[simp] theorem sendDevState_draws : (sendDevState s).draws = s.draws := rfl

@[simp] theorem sendInStatus_usb : (sendInStatus s).usb = s.usb := rfl
@[simp] theorem sendInStatus_sys : (sendInStatus s).sys = s.sys := rfl
@[simp] theorem sendInStatus_s2u : (sendInStatus s).s2u = s.s2u := rfl
@[simp] theorem sendInStatus_u2s : (sendInStatus s).u2s = s.u2s ++ [.inStatus s.usb.inReady (levelOf s.usb.inFifo) s.usb.inOverflow] := rfl
@[simp] theorem sendInStatus_lineState : (sendInStatus s).lineState = s.lineState := rfl
@[simp] theorem sendInStatus_txLog : (sendInStatus s).txLog = s.txLog := rfl
@[simp] theorem sendInStatus_readLog : (sendInStatus s).readLog = s.readLog := rfl
@[simp] theorem sendInStatus_cfg : (sendInStatus s).cfg = s.cfg := rfl
@[simp] theorem sendInStatus_agenda : (sendInStatus s).agenda = s.agenda := rfl
@[simp] theorem sendInStatus_draws : (sendInStatus s).draws = s.draws := rfl

@[simp] theorem timeout_usb : (timeout s).usb = { s.usb with xact := .idle } := rfl
@[simp] theorem timeout_sys : (timeout s).sys = s.sys := rfl
@[simp] theorem timeout_s2u : (timeout s).s2u = s.s2u := rfl
@[simp] theorem timeout_u2s : (timeout s).u2s = s.u2s := rfl
@[simp] theorem timeout_lineState : (timeout s).lineState = s.lineState := rfl
@[simp] theorem timeout_txLog : (timeout s).txLog = s.txLog := rfl
@[simp] theorem timeout_readLog : (timeout s).readLog = s.readLog := rfl
@[simp] theorem timeout_cfg : (timeout s).cfg = s.cfg := rfl
@[simp] theorem timeout_agenda : (timeout s).agenda = s.agenda := rfl
@[simp] theorem timeout_draws : (timeout s).draws = s.draws := rfl

@[simp] theorem powerOn_usb : (powerOn s).usb = Usb.reset := rfl
@[simp] theorem powerOn_sys : (powerOn s).sys = Sys.reset := rfl
@[simp] theorem powerOn_s2u : (powerOn s).s2u = [] := rfl
@[simp] theorem powerOn_u2s : (powerOn s).u2s = [] := rfl
@[simp] theorem powerOn_lineState : (powerOn s).lineState = s.lineState := rfl
@[simp] theorem powerOn_txLog : (powerOn s).txLog = s.txLog := rfl
@[simp] theorem powerOn_readLog : (powerOn s).readLog = s.readLog := rfl
@[simp] theorem powerOn_cfg : (powerOn s).cfg = s.cfg := rfl
@[simp] theorem powerOn_agenda : (powerOn s).agenda = s.agenda := rfl
@[simp] theorem powerOn_draws : (powerOn s).draws = s.draws := rfl

@[simp] theorem coreClear_usb (kind : ResetKind) : (coreClear kind s).usb = s.usb.cleared := rfl
@[simp] theorem coreClear_sys (kind : ResetKind) : (coreClear kind s).sys = s.sys := rfl
@[simp] theorem coreClear_s2u (kind : ResetKind) : (coreClear kind s).s2u = s.s2u := rfl
@[simp] theorem coreClear_u2s (kind : ResetKind) : (coreClear kind s).u2s = s.u2s ++ [.reset kind, .inStatus 0 0 false] := by simp [coreClear]
@[simp] theorem coreClear_lineState (kind : ResetKind) : (coreClear kind s).lineState = s.lineState := rfl
@[simp] theorem coreClear_txLog (kind : ResetKind) : (coreClear kind s).txLog = s.txLog := rfl
@[simp] theorem coreClear_readLog (kind : ResetKind) : (coreClear kind s).readLog = s.readLog := rfl
@[simp] theorem coreClear_cfg (kind : ResetKind) : (coreClear kind s).cfg = s.cfg := rfl
@[simp] theorem coreClear_agenda (kind : ResetKind) : (coreClear kind s).agenda = s.agenda := rfl
@[simp] theorem coreClear_draws (kind : ResetKind) : (coreClear kind s).draws = s.draws := rfl

end Sys2Proof.Machine
end

