-- ==== Sys2Proof/Laws/Ops.lean ====
section
/-! SUPPORT. What the shared operations can do: masks bit by bit, payloads, pending bits, the FIFO clear, the token filter,
and the frames of the messages. -/

namespace Sys2Proof.Machine

open Sys2Proof

/-! ### Masks -/

theorem getLsbD_one_shift (n : Ep) (k : Nat) (hk : k < 16) :
    (1#16 <<< n.toNat).getLsbD k = decide (k = n.toNat) := by
  have := n.isLt
  by_cases h : k < n.toNat
  · simp [hk, h]; omega
  · by_cases h' : k = n.toNat
    · simp [h', show n.toNat < 16 by omega]
    · simp [hk, h, h']; omega

theorem setEp_bit (m : Mask) (n : Ep) (k : Nat) (hk : k < 16) :
    (setEp m n).getLsbD k = (m.getLsbD k || decide (k = n.toNat)) := by
  rw [setEp, BitVec.getLsbD_or, getLsbD_one_shift n k hk]

theorem clearEp_bit (m : Mask) (n : Ep) (k : Nat) (hk : k < 16) :
    (clearEp m n).getLsbD k = (m.getLsbD k && decide (k ≠ n.toNat)) := by
  rw [clearEp, BitVec.getLsbD_and, BitVec.getLsbD_not, getLsbD_one_shift n k hk]
  simp [hk]

theorem flipEp_bit (m : Mask) (n : Ep) (k : Nat) (hk : k < 16) :
    (flipEp m n).getLsbD k = (m.getLsbD k ^^ decide (k = n.toNat)) := by
  rw [flipEp, BitVec.getLsbD_xor, getLsbD_one_shift n k hk]

/-! ### Operands -/

theorem ofPayload_eq_some {p : List Byte} {d : SetupBytes} (h : SetupBytes.ofPayload p = some d) :
    p = [d.d0, d.d1, d.d2, d.d3, d.d4, d.d5, d.d6, d.d7] := by
  unfold SetupBytes.ofPayload at h
  split at h
  · cases h; rfl
  · cases h

theorem ofPayload_eq_none_iff (p : List Byte) : SetupBytes.ofPayload p = none ↔ p.length ≠ 8 := by
  match p with
  | [] | [_] | [_, _] | [_, _, _] | [_, _, _, _] | [_, _, _, _, _] | [_, _, _, _, _, _] | [_, _, _, _, _, _, _] =>
    simp [SetupBytes.ofPayload]
  | [_, _, _, _, _, _, _, _] => simp [SetupBytes.ofPayload]
  | _ :: _ :: _ :: _ :: _ :: _ :: _ :: _ :: _ :: rest => simp [SetupBytes.ofPayload]

/-! ### The FIFO clear and the token filter -/

theorem outClear_cases (s : State) :
    (s.sys.outAvailSys = true ∧
      outClear s =
        { s with sys := { s.sys with outFifo := [], outAvailSys := false }, s2u := s.s2u ++ [.outAck] }) ∨
    (s.sys.outAvailSys = false ∧ outClear s = s) := by
  cases h : s.sys.outAvailSys
  · exact .inr ⟨rfl, by simp [outClear, h]⟩
  · exact .inl ⟨rfl, by simp [outClear, h, State.sendS2U, State.modSys]⟩

theorem tokenAccepted_iff (addr : DevAddr) (s : State) :
    tokenAccepted addr s = true ↔ answers s.usb.devState = true ∧ addr = s.usb.address := by
  unfold tokenAccepted answers
  cases s.usb.devState <;> simp

/-- A token runs its action on the state with no transaction open, or only ends the open transaction. -/
theorem onToken_cases (addr : DevAddr) (act : State → State) (s : State) :
    (tokenAccepted addr s = true ∧ onToken addr act s = act (s.setXact .idle)) ∨
    (tokenAccepted addr s = false ∧ onToken addr act s = s.setXact .idle) := by
  have h : tokenAccepted addr (s.setXact .idle) = tokenAccepted addr s := rfl
  cases h' : tokenAccepted addr s
  · exact .inr ⟨rfl, by simp [onToken, h, h']⟩
  · exact .inl ⟨rfl, by simp [onToken, h, h']⟩

/-! ### Frames of the messages -/

/-- The parts of the state that no USB-domain rule of an `s2u` message touches. -/
theorem applyS2U_frame (m : S2UMsg) (s : State) :
    (applyS2U m s).sys = s.sys ∧ (applyS2U m s).s2u = s.s2u ∧ (applyS2U m s).lineState = s.lineState ∧
    (applyS2U m s).txLog = s.txLog ∧ (applyS2U m s).readLog = s.readLog ∧ (applyS2U m s).cfg = s.cfg ∧
    (applyS2U m s).agenda = s.agenda ∧ (applyS2U m s).draws = s.draws := by
  cases m with
  | enable v => simp only [applyS2U, applyEnable]; split <;> split <;> simp
  | address a => simp only [applyS2U, applyAddress]; split <;> (try split) <;> simp
  | configured v => simp only [applyS2U, applyConfigured]; split <;> simp
  | softReset => simp only [applyS2U, applySoftReset]; split <;> (try split) <;> simp
  | inPush b => simp [applyS2U, applyInPush]
  | inReady ep => simp [applyS2U, applyInReady]
  | inStall m => simp [applyS2U, applyInStall]
  | inEn m => simp [applyS2U, applyInEn]
  | inFifoReset => simp [applyS2U, applyInFifoReset]
  | outAck => simp [applyS2U, applyOutAck]
  | outStall m => simp [applyS2U, applyOutStall]
  | outEn m => simp [applyS2U, applyOutEn]

/-- A delivery by `U2S` touches the system domain and its channel only. -/
theorem deliverU2S_cases (s : State) :
    (s.u2s = [] ∧ deliverU2S s = s) ∨
    ∃ m rest, s.u2s = m :: rest ∧ deliverU2S s = { s with u2s := rest, sys := s.sys.take m } := by
  unfold deliverU2S
  cases h : s.u2s with
  | nil => exact .inl ⟨rfl, rfl⟩
  | cons m rest => exact .inr ⟨m, rest, rfl, rfl⟩

theorem deliverS2U_cases (s : State) :
    (s.s2u = [] ∧ deliverS2U s = s) ∨
    ∃ m rest, s.s2u = m :: rest ∧ deliverS2U s = applyS2U m { s with s2u := rest } := by
  unfold deliverS2U
  cases h : s.s2u with
  | nil => exact .inl ⟨rfl, rfl⟩
  | cons m rest => exact .inr ⟨m, rest, rfl, rfl⟩

/-- The parts of the state that a bus reset does not touch. -/
theorem busReset_frame (s : State) :
    (busReset s).sys = s.sys ∧ (busReset s).lineState = s.lineState ∧ (busReset s).txLog = s.txLog ∧
    (busReset s).readLog = s.readLog ∧ (busReset s).cfg = s.cfg ∧ (busReset s).agenda = s.agenda ∧
    (busReset s).draws = s.draws := by
  simp only [busReset]
  split
  · simp
  · split <;> split <;> simp

/-- What a step is taken from: the agenda's head with the rest left, or a drawn action. -/
theorem fetch_cases (s : State) :
    (∃ a rest, s.agenda = a :: rest ∧ s.fetch = (a, { s with agenda := rest })) ∨
    (s.agenda = [] ∧ s.fetch = (Config.draw s.draws, { s with draws := s.draws + 1 })) := by
  unfold State.fetch
  cases h : s.agenda with
  | nil => exact .inr ⟨rfl, rfl⟩
  | cons a rest => exact .inl ⟨a, rest, rfl, rfl⟩

/-- An input that is no instruction changes at most the values read. -/
theorem rejectInput_cases (x : Input) (r : Reject) (s : State) :
    rejectInput x r s = .next s ∨ rejectInput x r s = .next (s.returnRead 0) ∨
    (r = .misaligned ∧ rejectInput x r s = .refused .misaligned) := by
  cases r <;> cases x <;> simp [rejectInput]

end Sys2Proof.Machine
end

