-- ==== Sys2Proof/Laws/PerInstr.lean ====
section
/-! SUPPORT. Statements made for every instruction, one lemma per constructor. -/

/-! The encoding of every instruction is a well-formed input: `CSR_BASE` and every displacement are multiples of 4
(20_memory.md R81; 30_encoding.md R123). -/

namespace Sys2Proof.Laws.EncodedInputWellFormed

open Sys2Proof

/-- The encoding of `i` passes the check of WellFormed.lean, whatever `CSR_BASE`. -/
def Statement (i : Instr) : Prop := ∀ c : Config, (encode c.csrBase i).wf = true

theorem pidOut (addr : DevAddr) (ep : Ep) : Statement (.pidOut addr ep) := fun _ => rfl
theorem pidIn (addr : DevAddr) (ep : Ep) : Statement (.pidIn addr ep) := fun _ => rfl
theorem pidSof (frame : BitVec 11) : Statement (.pidSof frame) := fun _ => rfl
theorem pidSetup (addr : DevAddr) (ep : Ep) : Statement (.pidSetup addr ep) := fun _ => rfl
theorem pidData0 (payload : List Byte) : Statement (.pidData0 payload) := fun _ => rfl
theorem pidData1 (payload : List Byte) : Statement (.pidData1 payload) := fun _ => rfl
theorem pidData2 (payload : List Byte) : Statement (.pidData2 payload) := fun _ => rfl
theorem pidMdata (payload : List Byte) : Statement (.pidMdata payload) := fun _ => rfl
theorem pidAck : Statement (.pidAck) := fun _ => rfl
theorem pidNak : Statement (.pidNak) := fun _ => rfl
theorem pidStall : Statement (.pidStall) := fun _ => rfl
theorem pidNyet : Statement (.pidNyet) := fun _ => rfl
theorem pidPreErr (rest : List Byte) : Statement (.pidPreErr rest) := fun _ => rfl
theorem pidSplit (rest : List Byte) : Statement (.pidSplit rest) := fun _ => rfl
theorem pidPing (rest : List Byte) : Statement (.pidPing rest) := fun _ => rfl
theorem pidReserved (rest : List Byte) : Statement (.pidReserved rest) := fun _ => rfl
theorem rDcEvPending : Statement .rDcEvPending := fun c => alignedAddr_busAddr c _
theorem wDcEvPending (v : Word) : Statement (.wDcEvPending v) := fun c => alignedAddr_busAddr c _
theorem rDcEvEnable : Statement .rDcEvEnable := fun c => alignedAddr_busAddr c _
theorem wDcEvEnable (v : Word) : Statement (.wDcEvEnable v) := fun c => alignedAddr_busAddr c _
theorem rDcEnable : Statement .rDcEnable := fun c => alignedAddr_busAddr c _
theorem wDcEnable (v : Word) : Statement (.wDcEnable v) := fun c => alignedAddr_busAddr c _
theorem rDcAddress : Statement .rDcAddress := fun c => alignedAddr_busAddr c _
theorem wDcAddress (v : Word) : Statement (.wDcAddress v) := fun c => alignedAddr_busAddr c _
theorem rDcSpeed : Statement .rDcSpeed := fun c => alignedAddr_busAddr c _
theorem wDcSpeed (v : Word) : Statement (.wDcSpeed v) := fun c => alignedAddr_busAddr c _
theorem rDcStatus : Statement .rDcStatus := fun c => alignedAddr_busAddr c _
theorem wDcStatus (v : Word) : Statement (.wDcStatus v) := fun c => alignedAddr_busAddr c _
theorem rDcCtrl : Statement .rDcCtrl := fun c => alignedAddr_busAddr c _
theorem wDcCtrl (v : Word) : Statement (.wDcCtrl v) := fun c => alignedAddr_busAddr c _
theorem rDcConfigured : Statement .rDcConfigured := fun c => alignedAddr_busAddr c _
theorem wDcConfigured (v : Word) : Statement (.wDcConfigured v) := fun c => alignedAddr_busAddr c _
theorem rSetupEvPending : Statement .rSetupEvPending := fun c => alignedAddr_busAddr c _
theorem wSetupEvPending (v : Word) : Statement (.wSetupEvPending v) := fun c => alignedAddr_busAddr c _
theorem rSetupEvEnable : Statement .rSetupEvEnable := fun c => alignedAddr_busAddr c _
theorem wSetupEvEnable (v : Word) : Statement (.wSetupEvEnable v) := fun c => alignedAddr_busAddr c _
theorem rSetupData0 : Statement .rSetupData0 := fun c => alignedAddr_busAddr c _
theorem wSetupData0 (v : Word) : Statement (.wSetupData0 v) := fun c => alignedAddr_busAddr c _
theorem rSetupData1 : Statement .rSetupData1 := fun c => alignedAddr_busAddr c _
theorem wSetupData1 (v : Word) : Statement (.wSetupData1 v) := fun c => alignedAddr_busAddr c _
theorem rSetupData2 : Statement .rSetupData2 := fun c => alignedAddr_busAddr c _
theorem wSetupData2 (v : Word) : Statement (.wSetupData2 v) := fun c => alignedAddr_busAddr c _
theorem rSetupData3 : Statement .rSetupData3 := fun c => alignedAddr_busAddr c _
theorem wSetupData3 (v : Word) : Statement (.wSetupData3 v) := fun c => alignedAddr_busAddr c _
theorem rSetupData4 : Statement .rSetupData4 := fun c => alignedAddr_busAddr c _
theorem wSetupData4 (v : Word) : Statement (.wSetupData4 v) := fun c => alignedAddr_busAddr c _
theorem rSetupData5 : Statement .rSetupData5 := fun c => alignedAddr_busAddr c _
theorem wSetupData5 (v : Word) : Statement (.wSetupData5 v) := fun c => alignedAddr_busAddr c _
theorem rSetupData6 : Statement .rSetupData6 := fun c => alignedAddr_busAddr c _
theorem wSetupData6 (v : Word) : Statement (.wSetupData6 v) := fun c => alignedAddr_busAddr c _
theorem rSetupData7 : Statement .rSetupData7 := fun c => alignedAddr_busAddr c _
theorem wSetupData7 (v : Word) : Statement (.wSetupData7 v) := fun c => alignedAddr_busAddr c _
theorem rSetupStatus : Statement .rSetupStatus := fun c => alignedAddr_busAddr c _
theorem wSetupStatus (v : Word) : Statement (.wSetupStatus v) := fun c => alignedAddr_busAddr c _
theorem rSetupAck : Statement .rSetupAck := fun c => alignedAddr_busAddr c _
theorem wSetupAck (v : Word) : Statement (.wSetupAck v) := fun c => alignedAddr_busAddr c _
theorem rInEvPending : Statement .rInEvPending := fun c => alignedAddr_busAddr c _
theorem wInEvPending (v : Word) : Statement (.wInEvPending v) := fun c => alignedAddr_busAddr c _
theorem rInEvEnable : Statement .rInEvEnable := fun c => alignedAddr_busAddr c _
theorem wInEvEnable (v : Word) : Statement (.wInEvEnable v) := fun c => alignedAddr_busAddr c _
theorem rInData : Statement .rInData := fun c => alignedAddr_busAddr c _
theorem wInData (v : Word) : Statement (.wInData v) := fun c => alignedAddr_busAddr c _
theorem rInEpno : Statement .rInEpno := fun c => alignedAddr_busAddr c _
theorem wInEpno (v : Word) : Statement (.wInEpno v) := fun c => alignedAddr_busAddr c _
theorem rInReady : Statement .rInReady := fun c => alignedAddr_busAddr c _
theorem wInReady (v : Word) : Statement (.wInReady v) := fun c => alignedAddr_busAddr c _
theorem rInStall : Statement .rInStall := fun c => alignedAddr_busAddr c _
theorem wInStall (v : Word) : Statement (.wInStall v) := fun c => alignedAddr_busAddr c _
theorem rInEpEnable : Statement .rInEpEnable := fun c => alignedAddr_busAddr c _
theorem wInEpEnable (v : Word) : Statement (.wInEpEnable v) := fun c => alignedAddr_busAddr c _
theorem rInStatus : Statement .rInStatus := fun c => alignedAddr_busAddr c _
theorem wInStatus (v : Word) : Statement (.wInStatus v) := fun c => alignedAddr_busAddr c _
theorem rInCtrl : Statement .rInCtrl := fun c => alignedAddr_busAddr c _
theorem wInCtrl (v : Word) : Statement (.wInCtrl v) := fun c => alignedAddr_busAddr c _
theorem rOutEvPending : Statement .rOutEvPending := fun c => alignedAddr_busAddr c _
theorem wOutEvPending (v : Word) : Statement (.wOutEvPending v) := fun c => alignedAddr_busAddr c _
theorem rOutEvEnable : Statement .rOutEvEnable := fun c => alignedAddr_busAddr c _
theorem wOutEvEnable (v : Word) : Statement (.wOutEvEnable v) := fun c => alignedAddr_busAddr c _
theorem rOutData : Statement .rOutData := fun c => alignedAddr_busAddr c _
theorem wOutData (v : Word) : Statement (.wOutData v) := fun c => alignedAddr_busAddr c _
theorem rOutEpno : Statement .rOutEpno := fun c => alignedAddr_busAddr c _
theorem wOutEpno (v : Word) : Statement (.wOutEpno v) := fun c => alignedAddr_busAddr c _
theorem rOutAck : Statement .rOutAck := fun c => alignedAddr_busAddr c _
theorem wOutAck (v : Word) : Statement (.wOutAck v) := fun c => alignedAddr_busAddr c _
theorem rOutStall : Statement .rOutStall := fun c => alignedAddr_busAddr c _
theorem wOutStall (v : Word) : Statement (.wOutStall v) := fun c => alignedAddr_busAddr c _
theorem rOutEpEnable : Statement .rOutEpEnable := fun c => alignedAddr_busAddr c _
theorem wOutEpEnable (v : Word) : Statement (.wOutEpEnable v) := fun c => alignedAddr_busAddr c _
theorem rOutStatus : Statement .rOutStatus := fun c => alignedAddr_busAddr c _
theorem wOutStatus (v : Word) : Statement (.wOutStatus v) := fun c => alignedAddr_busAddr c _
theorem rOutCtrl : Statement .rOutCtrl := fun c => alignedAddr_busAddr c _
theorem wOutCtrl (v : Word) : Statement (.wOutCtrl v) := fun c => alignedAddr_busAddr c _

end Sys2Proof.Laws.EncodedInputWellFormed
end

