-- ==== Sys2Proof/Machine/Program.lean ====
section
/-! DEFINITION. The program notation of 30_encoding.md R127 and R128: each line is an action of the agenda, each
pseudo-instruction its expansion, and SYNC the deliveries that empty both channels. -/

namespace Sys2Proof.Machine

open Sys2Proof

/-- `W <WIN>.<REG> <v>` (30_encoding.md R127), with the parameters `c`. -/
def wReg (c : Config) (r : Reg) (v : Word) : Action := .input (.csrWrite (r.busAddr c.csrBase) v)

/-- `R <WIN>.<REG>` (30_encoding.md R127). -/
def rReg (c : Config) (r : Reg) : Action := .input (.csrRead (r.busAddr c.csrBase))

/-- `H <bytes>` (30_encoding.md R127). -/
def hostPacket (bytes : List Byte) : Action := .input (.packet bytes false)

/-- `H! <bytes>` (30_encoding.md R127). -/
def hostErrPacket (bytes : List Byte) : Action := .input (.packet bytes true)

/-- `TOKEN <PID> <addr> <ep>` (30_encoding.md R128). -/
def token (pid : TokenPid) (addr : DevAddr) (ep : Ep) : Action := hostPacket (tokenBytes pid addr ep)

/-- `DATA0 <p>` and `DATA1 <p>` (30_encoding.md R128). -/
def dataPacket (pid : DataPid) (payload : List Byte) : Action := hostPacket (dataBytes pid payload)

/-- `HS <ACK or NAK or STALL>` (30_encoding.md R128). -/
def handshake (pid : HandshakePid) : Action := hostPacket (handshakeBytes pid)

/-- `ARM_IN <ep>, <b0 ... bk>` (30_encoding.md R128). -/
def armIn (c : Config) (ep : Ep) (bytes : List Byte) : List Action :=
  wReg c .inEpno (place 0 ep) :: (bytes.map fun b => wReg c .inData (place 0 b)) ++ [wReg c .inReady 1]

/-- The register `<L>.EV_PENDING` (10_state.md R55). -/
def evPendingOf : Line → Reg
  | .dc => .dcEvPending
  | .setup => .setupEvPending
  | .inEp => .inEvPending
  | .outEp => .outEvPending

/-- `W1C <WIN> <m>` (30_encoding.md R128). -/
def w1c (c : Config) (l : Line) (m : Word) : Action := wReg c (evPendingOf l) m

/-- `n` deliveries of `S2U`. -/
def deliverS2UTimes : Nat → State → State
  | 0, s => s
  | n + 1, s => deliverS2UTimes n (deliverS2U s)

/-- `n` deliveries of `U2S`. -/
def deliverU2STimes : Nat → State → State
  | 0, s => s
  | n + 1, s => deliverU2STimes n (deliverU2S s)

/-- `SYNC`, in the order that empties `s2u` first: no delivery of either agent sends on `s2u`, and none of `U2S` on `u2s`
(30_encoding.md R127). -/
def sync (s : State) : State :=
  let t := deliverS2UTimes s.s2u.length s
  deliverU2STimes t.u2s.length t

/-- The actions of a program, one after the other; the first that is refused ends it. -/
def runActions : List Action → State → Host.Outcome State Fault Refusal
  | [], s => .next s
  | a :: rest, s =>
    match act a s with
    | .next t => runActions rest t
    | .fault f => .fault f
    | .refused r => .refused r

end Sys2Proof.Machine
end

