-- ==== Sys2Proof/Laws/Step.lean ====
section
/-! SUPPORT. What one action can do, said once: the effect of a register access on each part of the state, the seven effects
a packet can have, and the case split of `act`. -/

namespace Sys2Proof.Machine

open Sys2Proof

/-! ### Register accesses -/

/-- What a register access leaves alone. -/
structure AccessFrame (s t : State) : Prop where
  usb : t.usb = s.usb
  u2s : t.u2s = s.u2s
  txLog : t.txLog = s.txLog
  lineState : t.lineState = s.lineState
  cfg : t.cfg = s.cfg
  agenda : t.agenda = s.agenda
  s2u : ∃ ms, t.s2u = s.s2u ++ ms

theorem AccessFrame.refl (s : State) : AccessFrame s s := ⟨rfl, rfl, rfl, rfl, rfl, rfl, [], (List.append_nil _).symm⟩

theorem AccessFrame.send {s t : State} (h : AccessFrame s t) (m : S2UMsg) : AccessFrame s (t.sendS2U m) := by
  obtain ⟨a, b, c, d, e, f, ms, g⟩ := h
  exact ⟨a, b, c, d, e, f, ms ++ [m], by rw [State.sendS2U_s2u, g, List.append_assoc]⟩

theorem AccessFrame.modSys (s : State) (f : Sys → Sys) : AccessFrame s (s.modSys f) :=
  ⟨rfl, rfl, rfl, rfl, rfl, rfl, [], (List.append_nil _).symm⟩

theorem AccessFrame.returnRead (s : State) (v : Word) : AccessFrame s (s.returnRead v) :=
  ⟨rfl, rfl, rfl, rfl, rfl, rfl, [], (List.append_nil _).symm⟩

theorem outClear_frame (s : State) : AccessFrame s (outClear s) := by
  rcases outClear_cases s with ⟨_, h⟩ | ⟨_, h⟩ <;> rw [h]
  · exact ⟨rfl, rfl, rfl, rfl, rfl, rfl, _, rfl⟩
  · exact .refl s

/-- A read returns one value and sends nothing; only the read of `OUT.DATA` changes the system-domain state. -/
theorem exec_read {r : Reg} {s t : State} (h : exec r.readInstr s = .next t) :
    ∃ v, t = (match r with
      | .outData => s.modSys fun y => { y with outFifo := y.outFifo.tail }
      | _ => s).returnRead v := by
  cases r
  case outData =>
    obtain ⟨_, y, _, _, _, _, _, _, _, _⟩ := s
    obtain ⟨_, _, _, _, _, _, _, _, _, _, _, _, _, _, _, _, _, fifo, _, _, _, _, _⟩ := y
    cases fifo <;> (cases h; exact ⟨_, rfl⟩)
  all_goals (cases h; exact ⟨_, rfl⟩)

theorem exec_read_frame {r : Reg} {s t : State} (h : exec r.readInstr s = .next t) : AccessFrame s t := by
  obtain ⟨v, rfl⟩ := exec_read h
  split
  · exact ⟨rfl, rfl, rfl, rfl, rfl, rfl, [], (List.append_nil _).symm⟩
  · exact .returnRead s v

theorem exec_write_frame {r : Reg} {v : Word} {s t : State} (h : exec (r.writeInstr v) s = .next t) :
    AccessFrame s t := by
  cases r
  case outAck => cases h; split; exacts [outClear_frame s, .refl s]
  case outCtrl => cases h; split; exacts [outClear_frame s, .refl s]
  case outStall =>
    simp only [Reg.writeInstr, exec, execWOutStall] at h
    cases h
    refine .send ?_ _
    split
    · obtain ⟨a, b, c, d, e, f, g⟩ := outClear_frame (s.modSys fun y => { y with outStallReg := maskField v })
      exact ⟨a, b, c, d, e, f, g⟩
    · exact .modSys s _
  case inStall =>
    simp only [Reg.writeInstr, exec, execWInStall] at h
    cases h
    refine .send ?_ _
    split
    · exact .send (.modSys s _) _
    · exact .modSys s _
  case dcCtrl => cases h; split; exacts [.send (.refl s) _, .refl s]
  case inReady => cases h; split; exacts [.send (.refl s) _, .refl s]
  case inCtrl => cases h; split; exacts [.send (.refl s) _, .refl s]
  case setupAck => cases h; split; exacts [.modSys s _, .refl s]
  all_goals cases h
  all_goals first | exact .refl s | exact .modSys s _ | exact .send (.refl s) _ | exact .send (.modSys s _) _

/-- A register access is the read or the write of one register, or touches at most the values read. -/
theorem access_cases {a : Action} {s t : State} (ha : isFw a = true) (h : act a s = .next t) :
    t = s ∨ t = s.returnRead 0 ∨
    (∃ r : Reg, a = rReg s.cfg r ∧ decode s.cfg.csrBase (.csrRead (r.busAddr s.cfg.csrBase)) = .ok r.readInstr ∧
      exec r.readInstr s = .next t) ∨
    (∃ (r : Reg) (v : Word), a = wReg s.cfg r v ∧
      decode s.cfg.csrBase (.csrWrite (r.busAddr s.cfg.csrBase) v) = .ok (r.writeInstr v) ∧
      exec (r.writeInstr v) s = .next t) := by
  rcases a with (⟨b, e⟩ | ad | ⟨ad, v⟩) | _ | _ | _ | _ | _ | _
  any_goals cases ha
  all_goals simp only [act, runInput] at h
  · cases hd : decode s.cfg.csrBase (.csrRead ad) with
    | ok i =>
      obtain ⟨r, rfl, _, rfl⟩ := decodeAccess_ok hd
      rw [hd] at h
      exact .inr (.inr (.inl ⟨r, rfl, hd, h⟩))
    | error r =>
      rw [hd] at h
      simp only at h
      rcases rejectInput_cases (.csrRead ad) r s with h' | h' | ⟨_, h'⟩ <;> rw [h'] at h <;> cases h
      · exact .inl rfl
      · exact .inr (.inl rfl)
  · cases hd : decode s.cfg.csrBase (.csrWrite ad v) with
    | ok i =>
      obtain ⟨r, rfl, _, rfl⟩ := decodeAccess_ok hd
      rw [hd] at h
      exact .inr (.inr (.inr ⟨r, v, rfl, hd, h⟩))
    | error r =>
      rw [hd] at h
      simp only at h
      rcases rejectInput_cases (.csrWrite ad v) r s with h' | h' | ⟨_, h'⟩ <;> rw [h'] at h <;> cases h
      · exact .inl rfl
      · exact .inr (.inl rfl)

theorem access_frame {a : Action} {s t : State} (ha : isFw a = true) (h : act a s = .next t) : AccessFrame s t := by
  rcases access_cases ha h with rfl | rfl | ⟨r, _, _, h⟩ | ⟨r, v, _, _, h⟩
  · exact .refl _
  · exact .returnRead s 0
  · exact exec_read_frame h
  · exact exec_write_frame h

/-! ### Packets -/

/-- The effects a packet can have (40_link_layer.md R148, R149): none but the end of the open transaction, or one of the
six effects of the transaction rules. -/
inductive PacketEffect (s : State) : State → Prop
  | idle : PacketEffect s (s.setXact .idle)
  | setupToken (ep : Ep) : answers s.usb.devState = true → PacketEffect s (s.setXact (.setupData ep))
  | outToken (ep : Ep) : answers s.usb.devState = true → PacketEffect s (s.setXact (.outData ep))
  | inToken (ep : Ep) :
      answers s.usb.devState = true → testEp s.usb.inEn ep = true →
        PacketEffect s (Machine.inToken ep (s.setXact .idle))
  | setup (ep : Ep) (p : List Byte) (d : SetupBytes) :
      s.usb.xact = .setupData ep → SetupBytes.ofPayload p = some d → PacketEffect s (setupPacket ep p s)
  | out (ep : Ep) (t : Bool) (p : List Byte) : s.usb.xact = .outData ep → PacketEffect s (outPacket ep t p s)
  | commit (ep : Ep) (n : Nat) : s.usb.xact = .inHandshake ep n → PacketEffect s (inCommit ep n s)

theorem onToken_effect {addr : DevAddr} {s : State} {f : State → State}
    (hf : answers s.usb.devState = true → PacketEffect s (f (s.setXact .idle))) :
    PacketEffect s (onToken addr f s) := by
  rcases onToken_cases addr f s with ⟨h, e⟩ | ⟨_, e⟩ <;> rw [e]
  · exact hf ((tokenAccepted_iff _ _).1 h).1
  · exact .idle

theorem onData_effect (t : Bool) (p : List Byte) (s : State) : PacketEffect s (onData t p s) := by
  unfold onData
  split
  · rename_i ep h
    cases hp : SetupBytes.ofPayload p with
    | none => simp only [setupPacket, hp]; exact .idle
    | some d => exact .setup ep p d h hp
  · rename_i ep h
    exact .out ep t p h
  · exact .idle
  · exact .idle

/-- The instruction is a received packet. -/
def isPid : Instr → Bool
  | .pidOut _ _ | .pidIn _ _ | .pidSof _ | .pidSetup _ _ | .pidData0 _ | .pidData1 _ | .pidData2 _ | .pidMdata _
  | .pidAck | .pidNak | .pidStall | .pidNyet | .pidPreErr _ | .pidSplit _ | .pidPing _ | .pidReserved _ => true
  | _ => false

theorem exec_pid_effect {i : Instr} {s t : State} (hi : isPid i = true) (h : exec i s = .next t) : PacketEffect s t := by
  cases i
  case pidOut addr ep =>
    cases h
    refine onToken_effect fun h => ?_
    simp only [Machine.outToken]
    split
    exacts [.outToken ep h, .idle]
  case pidSetup addr ep =>
    cases h
    refine onToken_effect fun h => ?_
    simp only [Machine.setupToken]
    split
    exacts [.setupToken ep h, .idle]
  case pidIn addr ep =>
    cases h
    refine onToken_effect fun h => ?_
    cases he : testEp s.usb.inEn ep
    · have : Machine.inToken ep (s.setXact .idle) = s.setXact .idle := by unfold Machine.inToken; exact if_pos he
      rw [this]
      exact .idle
    · exact .inToken ep h he
  case pidData0 p => cases h; exact onData_effect false p s
  case pidData1 p => cases h; exact onData_effect true p s
  case pidAck =>
    simp only [exec, execPidAck] at h
    split at h <;> rename_i hx <;> cases h
    · exact .commit _ _ hx
    all_goals exact .idle
  all_goals first | (cases hi; done) | (cases h; exact .idle)

theorem decode_packet {base : Word} {bytes : List Byte} {err : Bool} {i : Instr}
    (h : decode base (.packet bytes err) = .ok i) :
    isPid i = true ∧ err = false := by
  have hc : ∀ c : PacketClass, c.instr = .ok i → isPid i = true := by
    intro c hc
    rcases c with _ | ⟨p, _, _⟩ | _ | ⟨p, _⟩ | p | ⟨p, _⟩
    all_goals first | (cases hc; done) | (cases hc; rfl) | (cases p <;> (cases hc; rfl))
  simp only [decode] at h
  split at h
  · rename_i j hj
    cases h
    refine ⟨hc _ hj, ?_⟩
    cases err
    · rfl
    · cases hj
  · cases h

/-- A packet changes nothing, or decodes to an instruction and has one of the packet effects. -/
theorem packet_cases {bytes : List Byte} {err : Bool} {s t : State} (h : act (.input (.packet bytes err)) s = .next t) :
    t = s ∨
    (err = false ∧ ∃ i, decode s.cfg.csrBase (.packet bytes false) = .ok i ∧ isPid i = true ∧ exec i s = .next t ∧
      PacketEffect s t) := by
  simp only [act, runInput] at h
  cases hd : decode s.cfg.csrBase (.packet bytes err) with
  | ok i =>
    obtain ⟨hi, rfl⟩ := decode_packet hd
    rw [hd] at h
    exact .inr ⟨rfl, i, hd, hi, h, exec_pid_effect hi h⟩
  | error r =>
    rw [hd] at h
    cases r <;> cases h <;> exact .inl rfl

/-- What no packet touches. -/
theorem PacketEffect.frame {s t : State} (h : PacketEffect s t) :
    t.sys = s.sys ∧ t.s2u = s.s2u ∧ t.lineState = s.lineState ∧ t.cfg = s.cfg ∧ t.readLog = s.readLog ∧
    t.agenda = s.agenda ∧ t.usb.devState = s.usb.devState ∧ t.usb.speed = s.usb.speed ∧
    t.usb.address = s.usb.address ∧ t.usb.inEn = s.usb.inEn ∧ t.usb.outEn = s.usb.outEn ∧
    ∃ ms, t.u2s = s.u2s ++ ms := by
  cases h with
  | idle => simp
  | setupToken => simp
  | outToken => simp
  | inToken ep h =>
    simp only [Machine.inToken]
    split <;> (try split) <;> (try split) <;> simp
  | setup ep p d h h' =>
    simp only [setupPacket, h']
    split <;> simp
  | out ep t p h =>
    simp only [outPacket]
    split <;> (try split) <;> (try split) <;> (try split) <;> simp
  | commit ep n h => simp [inCommit]

/-! ### Actions -/

/-- What an action that answers a next state has done. -/
theorem act_cases {a : Action} {s t : State} (h : act a s = .next t) :
    (isFw a = true ∧ AccessFrame s t) ∨
    (∃ bytes err, a = .input (.packet bytes err) ∧ (t = s ∨ PacketEffect s t)) ∨
    (a = .busReset ∧ t = busReset s) ∨ (a = .timeout ∧ t = timeout s) ∨
    (∃ ls, a = .lineState ls ∧ t = lineChange ls s) ∨
    (a = .s2u ∧ ((s.s2u = [] ∧ t = s) ∨ ∃ m rest, s.s2u = m :: rest ∧ t = applyS2U m { s with s2u := rest })) ∨
    (a = .u2s ∧ ((s.u2s = [] ∧ t = s) ∨
      ∃ m rest, s.u2s = m :: rest ∧ t = { s with u2s := rest, sys := s.sys.take m })) ∨
    (a = .powerOn ∧ t = powerOn s) := by
  rcases a with (⟨b, e⟩ | ad | ⟨ad, v⟩) | _ | _ | ls | _ | _ | _
  · rcases packet_cases h with h | ⟨_, _, _, _, _, h⟩
    · exact .inr (.inl ⟨b, e, rfl, .inl h⟩)
    · exact .inr (.inl ⟨b, e, rfl, .inr h⟩)
  · exact .inl ⟨rfl, access_frame rfl h⟩
  · exact .inl ⟨rfl, access_frame rfl h⟩
  · cases h; simp
  · cases h; simp
  · cases h; simp
  · cases h
    rcases deliverS2U_cases s with ⟨h', h⟩ | ⟨m, r, h', h⟩ <;> rw [h] <;> simp [h']
  · cases h
    rcases deliverU2S_cases s with ⟨h', h⟩ | ⟨m, r, h', h⟩ <;> rw [h] <;> simp [h']
  · cases h; simp

/-- A step whose agenda is not empty takes its head. -/
theorem step_cons {s : State} {a : Action} {rest : List Action} (h : s.agenda = a :: rest) :
    step s = act a { s with agenda := rest } := by
  simp only [step, State.fetch, h]

/-- The fetch of a step touches only the agenda and the draws. -/
theorem fetch_frame (s : State) :
    s.fetch.2.usb = s.usb ∧ s.fetch.2.sys = s.sys ∧ s.fetch.2.s2u = s.s2u ∧ s.fetch.2.u2s = s.u2s ∧
    s.fetch.2.lineState = s.lineState ∧ s.fetch.2.txLog = s.txLog ∧ s.fetch.2.readLog = s.readLog ∧
    s.fetch.2.cfg = s.cfg := by
  rcases fetch_cases s with ⟨_, _, _, h⟩ | ⟨_, h⟩ <;> rw [h] <;> simp

/-- The steps of the machine are a run, with the fetched actions. -/
theorem run_of_steps {r : Nat → State} (h : ∀ n, step (r n) = .next (r (n + 1))) : Run (fun n => (r n).fetch.1) r := by
  intro n
  rcases fetch_cases (r n) with ⟨_, rest, h1, h2⟩ | ⟨h1, h2⟩ <;> have h3 := h n <;> rw [step, h2] at h3
  · exact ⟨rest, (r n).draws, by simp only [h2]; exact h3⟩
  · exact ⟨(r n).agenda, (r n).draws + 1, by simp only [h2]; exact h3⟩

/-! ### SYNC -/

theorem deliverU2STimes_u2s (n : Nat) (s : State) : (deliverU2STimes n s).u2s = s.u2s.drop n := by
  induction n generalizing s with
  | zero => rfl
  | succ n ih =>
    rw [deliverU2STimes, ih]
    rcases deliverU2S_cases s with ⟨h', h⟩ | ⟨m, r, h', h⟩ <;> rw [h] <;> simp [h']

theorem deliverU2STimes_s2u (n : Nat) (s : State) : (deliverU2STimes n s).s2u = s.s2u := by
  induction n generalizing s with
  | zero => rfl
  | succ n ih =>
    rw [deliverU2STimes, ih]
    rcases deliverU2S_cases s with ⟨_, h⟩ | ⟨m, r, _, h⟩ <;> rw [h]

theorem deliverS2UTimes_s2u (n : Nat) (s : State) : (deliverS2UTimes n s).s2u = s.s2u.drop n := by
  induction n generalizing s with
  | zero => rfl
  | succ n ih =>
    rw [deliverS2UTimes, ih]
    rcases deliverS2U_cases s with ⟨h', h⟩ | ⟨m, r, h', h⟩ <;> rw [h]
    · simp [h']
    · rw [(applyS2U_frame m _).2.1, h']
      rfl

/-- `SYNC` leaves both channels empty (30_encoding.md R127). -/
theorem sync_empties (s : State) : (sync s).s2u = [] ∧ (sync s).u2s = [] := by
  simp only [sync]
  constructor
  · rw [deliverU2STimes_s2u, deliverS2UTimes_s2u, List.drop_length]
  · rw [deliverU2STimes_u2s, List.drop_length]

end Sys2Proof.Machine
end

