-- ==== Sys2Proof/Tests/Slice0.lean ====
section
/-! SUPPORT. The model's own tests: the WellFormed smoke test, decoding of written-out words, one-step tests whose expected
results are those of 95_test_vectors.md or of the rule cited, and a witness for the hypotheses of every obligation. -/

namespace Sys2Proof.Tests

open Sys2Proof Sys2Proof.Machine

/-! ### States to test on -/

/-- The parameters 95_test_vectors.md uses, with `CSR_BASE` = 0x80000000 and the default depths. -/
def cfg : Config :=
  { csrPage := 0x80000, s2uFlushOnReset := false, setupClearsStall := false, irqMap := ⟨0, 1, 2, 3⟩ }

/-- `CSR_BASE` at the last page of the address space. -/
def lastPage : Config := { cfg with csrPage := 0xFFFFF }

/-- The reset state of 10_state.md R61 with those parameters and the line at SE0. -/
def detached : State := { State.reset with cfg := cfg, lineState := .se0 }

/-- `Default` at address 0 with speed FULL ("base" of 95_test_vectors.md section 2.4). -/
def base : State :=
  { detached with
    usb := { Usb.reset with devState := .default, speed := .full }
    sys := { Sys.reset with mState := .default, mSpeed := .full } }

/-- `base` with a USB-domain change. -/
def withUsb (f : Usb → Usb) : State := base.modUsb f

/-- `base` with a system-domain change. -/
def withSys (f : Sys → Sys) : State := base.modSys f

/-- `base` with messages in `s2u`. -/
def withS2U (l : List S2UMsg) : State := { base with s2u := l }

/-- `base` with messages in `u2s`. -/
def withU2S (l : List U2SMsg) : State := { base with u2s := l }

/-- `base` with an agenda. -/
def withAgenda (l : List Action) : State := { base with agenda := l }

/-- The next state, or `base` where there is none. -/
def after (o : Out) : State :=
  match o with
  | .next t => t
  | .fault _ => base
  | .refused _ => base

/-! ### WellFormed and decoding -/

/-- 20_memory.md R88: WellFormed refuses a misaligned access. -/
theorem test_wf_refuses_misaligned :
    Input.wf (.csrRead 2) = false ∧ Input.wf (.csrRead 1) = false ∧ Input.wf (.csrWrite 0x13 0) = false ∧
    Input.wf (.csrRead 0x14) = true ∧ Input.wf (.packet [] true) = true := by decide

/-- V-ENC-1 to V-ENC-5. -/
theorem test_crc5 : crc5 0x000 = 0x02 ∧ crc5 0x001 = 0x1D ∧ crc5 0x005 = 0x1A ∧ crc5 0x085 = 0x0C ∧ crc5 0x7FF = 0x08 := by
  decide +kernel

/-- V-ENC-15 to V-ENC-28. -/
theorem test_crc16 :
    crc16 [] = 0x0000 ∧ crc16 [0x03] = 0xBE00 ∧ crc16 [0x44] = 0x8C40 ∧ crc16 [0x01, 0x02] = 0x1E7E ∧
    crc16 [0x00, 0x05, 0x05, 0, 0, 0, 0, 0] = 0xA1EA ∧
    crc16 [0x80, 0x06, 0x00, 0x01, 0x00, 0x00, 0x40, 0x00] = 0x94DD ∧
    crc16 [0xAA, 0xAA, 0xAA, 0xAA, 0xAA, 0xAA, 0xAA, 0xAA] = 0xCCC0 := by decide +kernel

/-- Every PID of 30_encoding.md R111, with the packets of V-ENC and V-LL. -/
theorem test_decode_pids :
    ∀ p ∈ ([([0xE1, 0xFF, 0x47], .pidOut 127 15), ([0x69, 0x05, 0xD0], .pidIn 5 0), ([0xA5, 0xFF, 0x47], .pidSof 2047),
      ([0x2D, 0x01, 0xE8], .pidSetup 1 0), ([0xC3, 0x00, 0x00], .pidData0 []), ([0x4B, 0x03, 0x00, 0xBE], .pidData1 [3]),
      ([0x87, 0x00, 0x00], .pidData2 []), ([0x0F, 0x00, 0x00], .pidMdata []), ([0xD2], .pidAck), ([0x5A], .pidNak),
      ([0x1E], .pidStall), ([0x96], .pidNyet), ([0x3C, 1, 2, 3], .pidPreErr [1, 2, 3]), ([0x78], .pidSplit []),
      ([0xB4], .pidPing []), ([0xF0], .pidReserved [])] : List (List Byte × Instr)),
      decode cfg.csrBase (.packet p.1 false) = .ok p.2 := by decide +kernel

/-- V-LL-1 to V-LL-5, V-LL-11, V-LL-13, V-LL-16: each malformed packet, with the test that fails. -/
theorem test_malformed :
    classify [] false = .malformed .emptyPacket ∧ classify [0x69, 0x05, 0xD0] true = .malformed .phyError ∧
    classify [0x68, 0x05, 0xD0] false = .malformed .pidCheck ∧ classify [0x69, 0x05] false = .malformed .tokenLength ∧
    classify [0x69, 0x05, 0xD1] false = .malformed .tokenCrc ∧ classify [0xC3, 0x00] false = .malformed .dataLength ∧
    classify [0xC3, 0x00, 0x01] false = .malformed .dataCrc ∧
    classify [0xD2, 0x00] false = .malformed .handshakeLength := by decide +kernel

/-- 10_state.md R55 to R59: the reads of window 0, each at `CSR_BASE + 0x1000 * 0 + offset`. -/
theorem test_decode_reads_dc :
    ∀ p ∈ ([(0x80000000, .rDcEvPending),
      (0x80000004, .rDcEvEnable),
      (0x80000010, .rDcEnable),
      (0x80000014, .rDcAddress),
      (0x80000018, .rDcSpeed),
      (0x8000001C, .rDcStatus),
      (0x80000020, .rDcCtrl),
      (0x80000024, .rDcConfigured)] : List (Word × Instr)),
      decode cfg.csrBase (.csrRead p.1) = .ok p.2 := by decide +kernel

/-- 10_state.md R55 to R59: the writes of window 0, each at `CSR_BASE + 0x1000 * 0 + offset`. -/
theorem test_decode_writes_dc :
    ∀ p ∈ ([(0x80000000, .wDcEvPending 0xA5),
      (0x80000004, .wDcEvEnable 0xA5),
      (0x80000010, .wDcEnable 0xA5),
      (0x80000014, .wDcAddress 0xA5),
      (0x80000018, .wDcSpeed 0xA5),
      (0x8000001C, .wDcStatus 0xA5),
      (0x80000020, .wDcCtrl 0xA5),
      (0x80000024, .wDcConfigured 0xA5)] : List (Word × Instr)),
      decode cfg.csrBase (.csrWrite p.1 0xA5) = .ok p.2 := by decide +kernel

/-- 10_state.md R55 to R59: the reads of window 1, each at `CSR_BASE + 0x1000 * 1 + offset`. -/
theorem test_decode_reads_setup :
    ∀ p ∈ ([(0x80001000, .rSetupEvPending),
      (0x80001004, .rSetupEvEnable),
      (0x80001010, .rSetupData0),
      (0x80001014, .rSetupData1),
      (0x80001018, .rSetupData2),
      (0x8000101C, .rSetupData3),
      (0x80001020, .rSetupData4),
      (0x80001024, .rSetupData5),
      (0x80001028, .rSetupData6),
      (0x8000102C, .rSetupData7),
      (0x80001030, .rSetupStatus),
      (0x80001034, .rSetupAck)] : List (Word × Instr)),
      decode cfg.csrBase (.csrRead p.1) = .ok p.2 := by decide +kernel

/-- 10_state.md R55 to R59: the writes of window 1, each at `CSR_BASE + 0x1000 * 1 + offset`. -/
theorem test_decode_writes_setup :
    ∀ p ∈ ([(0x80001000, .wSetupEvPending 0xA5),
      (0x80001004, .wSetupEvEnable 0xA5),
      (0x80001010, .wSetupData0 0xA5),
      (0x80001014, .wSetupData1 0xA5),
      (0x80001018, .wSetupData2 0xA5),
      (0x8000101C, .wSetupData3 0xA5),
      (0x80001020, .wSetupData4 0xA5),
      (0x80001024, .wSetupData5 0xA5),
      (0x80001028, .wSetupData6 0xA5),
      (0x8000102C, .wSetupData7 0xA5),
      (0x80001030, .wSetupStatus 0xA5),
      (0x80001034, .wSetupAck 0xA5)] : List (Word × Instr)),
      decode cfg.csrBase (.csrWrite p.1 0xA5) = .ok p.2 := by decide +kernel

/-- 10_state.md R55 to R59: the reads of window 2, each at `CSR_BASE + 0x1000 * 2 + offset`. -/
theorem test_decode_reads_in :
    ∀ p ∈ ([(0x80002000, .rInEvPending),
      (0x80002004, .rInEvEnable),
      (0x80002010, .rInData),
      (0x80002014, .rInEpno),
      (0x80002018, .rInReady),
      (0x8000201C, .rInStall),
      (0x80002020, .rInEpEnable),
      (0x80002024, .rInStatus),
      (0x80002028, .rInCtrl)] : List (Word × Instr)),
      decode cfg.csrBase (.csrRead p.1) = .ok p.2 := by decide +kernel

/-- 10_state.md R55 to R59: the writes of window 2, each at `CSR_BASE + 0x1000 * 2 + offset`. -/
theorem test_decode_writes_in :
    ∀ p ∈ ([(0x80002000, .wInEvPending 0xA5),
      (0x80002004, .wInEvEnable 0xA5),
      (0x80002010, .wInData 0xA5),
      (0x80002014, .wInEpno 0xA5),
      (0x80002018, .wInReady 0xA5),
      (0x8000201C, .wInStall 0xA5),
      (0x80002020, .wInEpEnable 0xA5),
      (0x80002024, .wInStatus 0xA5),
      (0x80002028, .wInCtrl 0xA5)] : List (Word × Instr)),
      decode cfg.csrBase (.csrWrite p.1 0xA5) = .ok p.2 := by decide +kernel

/-- 10_state.md R55 to R59: the reads of window 3, each at `CSR_BASE + 0x1000 * 3 + offset`. -/
theorem test_decode_reads_out :
    ∀ p ∈ ([(0x80003000, .rOutEvPending),
      (0x80003004, .rOutEvEnable),
      (0x80003010, .rOutData),
      (0x80003014, .rOutEpno),
      (0x80003018, .rOutAck),
      (0x8000301C, .rOutStall),
      (0x80003020, .rOutEpEnable),
      (0x80003024, .rOutStatus),
      (0x80003028, .rOutCtrl)] : List (Word × Instr)),
      decode cfg.csrBase (.csrRead p.1) = .ok p.2 := by decide +kernel

/-- 10_state.md R55 to R59: the writes of window 3, each at `CSR_BASE + 0x1000 * 3 + offset`. -/
theorem test_decode_writes_out :
    ∀ p ∈ ([(0x80003000, .wOutEvPending 0xA5),
      (0x80003004, .wOutEvEnable 0xA5),
      (0x80003010, .wOutData 0xA5),
      (0x80003014, .wOutEpno 0xA5),
      (0x80003018, .wOutAck 0xA5),
      (0x8000301C, .wOutStall 0xA5),
      (0x80003020, .wOutEpEnable 0xA5),
      (0x80003024, .wOutStatus 0xA5),
      (0x80003028, .wOutCtrl 0xA5)] : List (Word × Instr)),
      decode cfg.csrBase (.csrWrite p.1 0xA5) = .ok p.2 := by decide +kernel
/-- V-DEC-1 to V-DEC-10 at `CSR_BASE` = 0x80000000. -/
theorem test_bus_decode :
    busTarget cfg.csrBase 0x80000018 = .reg .dcSpeed ∧ busTarget cfg.csrBase 0x8000102C = .reg .setupData7 ∧
    busTarget cfg.csrBase 0x80002010 = .reg .inData ∧ busTarget cfg.csrBase 0x80003024 = .reg .outStatus ∧
    busTarget cfg.csrBase 0x80000008 = .undefinedOffset ∧ busTarget cfg.csrBase 0x8000003C = .undefinedOffset ∧
    busTarget cfg.csrBase 0x80004000 = .noDevice ∧ busTarget cfg.csrBase 0x7FFFFFFC = .noDevice := by decide +kernel

/-- 20_memory.md R82 with `CSR_BASE` = 0xFFFFF000: window 0 is there, and what would follow it is below `CSR_BASE`. 00_scope.md
R6: the default depths. -/
theorem test_last_page :
    lastPage.csrBase = 0xFFFFF000 ∧ decode lastPage.csrBase (.csrRead 0xFFFFF01C) = .ok .rDcStatus ∧
    decode lastPage.csrBase (.csrRead 0x00000010) = .error .noDevice ∧
    Instr.encodable lastPage.csrBase .rDcStatus = true ∧ Instr.encodable lastPage.csrBase .rSetupData0 = false ∧
    cfg.inDepth = 64 ∧ cfg.outDepth = 64 := by decide +kernel

/-- V-DEC-6, V-DEC-8, V-DEC-9: a miss reads 0. -/
theorem test_miss_reads_zero :
    (after (act (.input (.csrRead 0x80000008)) base)).readLog = [0] ∧
    (after (act (.input (.csrRead 0x80004000)) base)).readLog = [0] ∧
    (after (act (.input (.csrRead 0x7FFFFFFC)) base)).readLog = [0] := by decide +kernel

/-- An opcode-table word of each kind decodes to its row (log 5). -/
theorem test_table_words :
    decodeTableWord 8 0x2D = some (.pidSetup 0 0) ∧ decodeTableWord 8 0xC3 = some (.pidData0 []) ∧
    decodeTableWord 24 0x6085E1 = some (.pidOut 5 1) ∧ decodeTableWord 32 0x2024 = some .rInStatus ∧
    decodeTableWord 64 0x700002010 = some (.wInData 7) := by decide +kernel

/-- A step of the machine with an opcode-table word placed runs that word's instruction: V-LL-22. -/
theorem test_step_runs_placed_word : (after (step (base.withFetchWord 24 0x100069))).txLog = [[0x5A]] := by
  decide +kernel

/-! ### One step per packet -/

/-- V-LL-23 and 44_out_endpoint.md R250: an OUT token opens its transaction; one to another address does not. -/
theorem test_out_token :
    (after (exec (.pidOut 0 0) base)).usb.xact = .outData 0 ∧ (after (exec (.pidOut 5 0) base)).usb.xact = .idle := by
  decide

/-- V-IN-3: an IN token to an endpoint that is not ready is NAKed. -/
theorem test_in_token_nak : (after (exec (.pidIn 0 0) base)).txLog = [[0x5A]] := by decide

/-- V-IN-1: an IN token sends the FIFO; the transaction waits for 3 bytes. -/
theorem test_in_token_data :
    let s := withUsb fun u => { u with inEn := 3, inReady := 2, inFifo := [0x11, 0x22, 0x33] }
    (after (exec (.pidIn 0 1) s)).txLog = [[0xC3, 0x11, 0x22, 0x33, 0x86, 0x8F]] ∧
    (after (exec (.pidIn 0 1) s)).usb.xact = .inHandshake 1 3 := by decide +kernel

/-- V-SU-4: SETUP is gated by the OUT enable; V-LL-25. -/
theorem test_setup_token :
    (after (exec (.pidSetup 0 0) base)).usb.xact = .setupData 0 ∧
    (after (exec (.pidSetup 0 0) (withUsb fun u => { u with outEn := 0 }))).usb.xact = .idle := by decide

/-- V-LL-27: SOF closes a transaction. -/
theorem test_sof : (after (exec (.pidSof 0) (withUsb fun u => { u with xact := .setupData 0 }))).usb.xact = .idle := by
  decide

/-- V-SU-1: the SETUP bytes are latched in wire order, acknowledged, and both toggles of endpoint 0 become 1. -/
theorem test_setup_data0 :
    let t := after (exec (.pidData0 [0x80, 0x06, 0x00, 0x01, 0x00, 0x00, 0x40, 0x00])
      (withUsb fun u => { u with xact := .setupData 0 }))
    t.txLog = [[0xD2]] ∧ t.u2s = [.setup 0 ⟨0x80, 0x06, 0x00, 0x01, 0x00, 0x00, 0x40, 0x00⟩ false] ∧
    t.usb.toggleIn = 1 ∧ t.usb.toggleOut = 1 := by decide

/-- V-OUT-1: DATA0 is stored, acknowledged and flips the toggle. -/
theorem test_out_data0 :
    let t := after (exec (.pidData0 [0x44]) (withUsb fun u => { u with outEn := 3, xact := .outData 1 }))
    t.txLog = [[0xD2]] ∧ t.u2s = [.outData 1 [0x44]] ∧ t.usb.toggleOut = 2 ∧ t.usb.outAvail = true := by decide

/-- V-OUT-2: a second packet is NAKed and flips nothing. -/
theorem test_out_data1_nak :
    let t := after (exec (.pidData1 [1, 2])
      (withUsb fun u => { u with outAvail := true, toggleOut := 2, xact := .outData 1 }))
    t.txLog = [[0x5A]] ∧ t.usb.toggleOut = 2 ∧ t.u2s = [] := by decide

/-- V-OUT-4: a duplicate DATA1 is acknowledged and discarded. -/
theorem test_out_data1_duplicate :
    let t := after (exec (.pidData1 [1, 2]) (withUsb fun u => { u with xact := .outData 1 }))
    t.txLog = [[0xD2]] ∧ t.u2s = [] ∧ t.usb.outAvail = false := by decide

/-- V-OUT-6: DATA2 gets no answer; MDATA likewise (V-LL-32). -/
theorem test_data2_mdata :
    (after (exec (.pidData2 []) (withUsb fun u => { u with xact := .outData 0 }))).txLog = [] ∧
    (after (exec (.pidMdata []) (withUsb fun u => { u with xact := .outData 0 }))).usb.xact = .idle := by decide

/-- V-IN-1: ACK drains, flips the toggle 0 to 1, clears ready and reports it. -/
theorem test_ack_commits :
    let t := after (exec .pidAck
      (withUsb fun u => { u with inReady := 2, inFifo := [1, 2, 3], xact := .inHandshake 1 3 }))
    t.usb.inFifo = [] ∧ t.usb.inReady = 0 ∧ t.usb.toggleIn = 2 ∧ t.u2s = [.inDone 1, .inStatus 0 0 false] := by decide

/-- V-IN-4: NAK, and in the same way STALL and NYET, commit nothing. -/
theorem test_nak_stall_nyet_commit_nothing :
    let s := withUsb fun u => { u with inReady := 1, inFifo := [9], xact := .inHandshake 0 1 }
    (after (exec .pidNak s)).usb.inFifo = [9] ∧ (after (exec .pidStall s)).usb.inReady = 1 ∧
    (after (exec .pidNyet s)).usb.toggleIn = 0 ∧ (after (exec .pidNak s)).usb.xact = .idle := by decide

/-- V-LL-32: the special PIDs get no answer and close the transaction. -/
theorem test_special_pids :
    let s := withUsb fun u => { u with xact := .setupData 0 }
    (after (exec (.pidPreErr [1]) s)).usb.xact = .idle ∧ (after (exec (.pidSplit []) s)).usb.xact = .idle ∧
    (after (exec (.pidPing []) s)).usb.xact = .idle ∧ (after (exec (.pidReserved []) s)).usb.xact = .idle ∧
    (after (exec (.pidPing []) s)).txLog = [] := by decide

/-! ### One step per register -/

/-- V-DC-2, V-DC-5, V-DC-11: the DC registers. -/
theorem test_dc_reads :
    let s := withSys fun y => { y with mState := .addressed, mAddress := 5, mLine := .j }
    (after (exec .rDcAddress s)).readLog = [5] ∧ (after (exec .rDcStatus s)).readLog = [0x13] ∧
    (after (exec .rDcSpeed s)).readLog = [1] ∧ (after (exec .rDcEnable s)).readLog = [0] ∧
    (after (exec .rDcCtrl s)).readLog = [0] ∧ (after (exec .rDcConfigured s)).readLog = [0] ∧
    (after (exec .rDcConfigured (withSys fun y => { y with mState := .configured }))).readLog = [1] := by decide

/-- 41_device_controller.md R186, R188, R191, R193, R194, R196: writes of the DC window, with bits outside the field. -/
theorem test_dc_writes :
    (after (exec (.wDcEnable 0xFFFFFFFE) base)).s2u = [.enable false] ∧
    (after (exec (.wDcAddress 0xFFFFFF85) base)).s2u = [.address 5] ∧
    (after (exec (.wDcCtrl 1) base)).s2u = [.softReset] ∧ (after (exec (.wDcCtrl 2) base)).s2u = [] ∧
    (after (exec (.wDcConfigured 1) base)).s2u = [.configured true] ∧
    (after (exec (.wDcSpeed 0) base)).sys = base.sys ∧ (after (exec (.wDcStatus 0) base)).s2u = [] := by decide

/-- V-SU-1: each SETUP byte register reads its own byte; `SETUP.STATUS` of endpoint 9, overwritten. -/
theorem test_setup_reads :
    let s := withSys fun y =>
      { y with setupData := ⟨0x80, 6, 2, 3, 4, 5, 0x40, 7⟩, setupReady := true, setupOverwritten := true, setupEpno := 9 }
    (after (exec .rSetupData0 s)).readLog = [0x80] ∧ (after (exec .rSetupData1 s)).readLog = [6] ∧
    (after (exec .rSetupData2 s)).readLog = [2] ∧ (after (exec .rSetupData3 s)).readLog = [3] ∧
    (after (exec .rSetupData4 s)).readLog = [4] ∧ (after (exec .rSetupData5 s)).readLog = [5] ∧
    (after (exec .rSetupData6 s)).readLog = [0x40] ∧ (after (exec .rSetupData7 s)).readLog = [7] ∧
    (after (exec .rSetupStatus s)).readLog = [0x93] ∧ (after (exec .rSetupAck s)).readLog = [0] := by decide

/-- V-SU-6, V-SU-8: `SETUP.ACK` clears READY and OVERWRITTEN and keeps the bytes; the read-only registers ignore writes. -/
theorem test_setup_writes :
    let s := withSys fun y => { y with setupData := ⟨1, 2, 3, 4, 5, 6, 7, 8⟩, setupReady := true, setupOverwritten := true }
    (after (exec (.wSetupAck 1) s)).sys =
      { s.sys with setupReady := false, setupOverwritten := false } ∧
    (after (exec (.wSetupAck 2) s)).sys = s.sys ∧
    (∀ i ∈ [Instr.wSetupData0 0xFF, .wSetupData1 0xFF, .wSetupData2 0xFF, .wSetupData3 0xFF, .wSetupData4 0xFF,
      .wSetupData5 0xFF, .wSetupData6 0xFF, .wSetupData7 0xFF, .wSetupStatus 0xFF], (after (exec i s)).sys = s.sys) := by
  decide

/-- V-IN-8, V-IN-11, V-IN-12: `IN.STATUS` and the write-only registers. -/
theorem test_in_reads :
    let s := withSys fun y =>
      { y with mInReady := 3, mInLevel := 2, mInOverflow := true, inLastEpno := 1, inStallReg := 4, inEnReg := 5 }
    (after (exec .rInStatus s)).readLog = [0x11020003] ∧ (after (exec .rInStall s)).readLog = [4] ∧
    (after (exec .rInEpEnable s)).readLog = [5] ∧ (after (exec .rInData s)).readLog = [0] ∧
    (after (exec .rInEpno s)).readLog = [0] ∧ (after (exec .rInReady s)).readLog = [0] ∧
    (after (exec .rInCtrl s)).readLog = [0] := by decide

/-- 43_in_endpoint.md R236 to R248: the writes of the IN window. -/
theorem test_in_writes :
    (after (exec (.wInData 0x1FF) base)).s2u = [.inPush 0xFF] ∧ (after (exec (.wInEpno 0x1F) base)).sys.inEpnoReg = 15 ∧
    (after (exec (.wInReady 1) (withSys fun y => { y with inEpnoReg := 3 }))).s2u = [.inReady 3] ∧
    (after (exec (.wInReady 0) base)).s2u = [] ∧ (after (exec (.wInEpEnable 0x10003) base)).s2u = [.inEn 3] ∧
    (after (exec (.wInCtrl 1) base)).s2u = [.inFifoReset] ∧ (after (exec (.wInStatus 7) base)).sys = base.sys := by
  decide

/-- Program P4, steps 20 and 29: setting a stall sends the mask alone, clearing one sends the FIFO reset first. -/
theorem test_in_stall :
    (after (exec (.wInStall 1) base)).s2u = [.inStall 1] ∧
    (after (exec (.wInStall 0) (withSys fun y => { y with inStallReg := 1 }))).s2u = [.inFifoReset, .inStall 0] := by
  decide

/-- V-OUT-1: the OUT registers with one byte stored for endpoint 1, and the pop. -/
theorem test_out_reads :
    let s := withSys fun y => { y with outFifo := [0x44], outAvailSys := true, outEpno := 1, outStallEpno := 2 }
    (after (exec .rOutStatus s)).readLog = [0x20010003] ∧ (after (exec .rOutEpno s)).readLog = [1] ∧
    (after (exec .rOutData s)).readLog = [0x44] ∧ (after (exec .rOutData s)).sys.outFifo = [] ∧
    (after (exec .rOutData base)).readLog = [0] ∧ (after (exec .rOutAck s)).readLog = [0] ∧
    (after (exec .rOutCtrl s)).readLog = [0] ∧ (after (exec .rOutStall s)).readLog = [0] ∧
    (after (exec .rOutEpEnable s)).readLog = [1] := by decide

/-- V-OUT-3, V-OUT-9: `OUT.ACK` and `OUT.CTRL` discard the packet; with none they do nothing. V-OUT-11. -/
theorem test_out_writes :
    let s := withSys fun y => { y with outFifo := [0x44], outAvailSys := true }
    (after (exec (.wOutAck 1) s)).sys.outFifo = [] ∧ (after (exec (.wOutAck 1) s)).s2u = [.outAck] ∧
    (after (exec (.wOutCtrl 1) s)).sys.outAvailSys = false ∧ (after (exec (.wOutCtrl 1) base)).s2u = [] ∧
    (after (exec (.wOutData 5) s)).sys = s.sys ∧ (after (exec (.wOutEpno 5) s)).sys = s.sys ∧
    (after (exec (.wOutStatus 5) s)).sys = s.sys ∧ (after (exec (.wOutEpEnable 3) s)).s2u = [.outEn 3] := by decide

/-- V-OUT-10: clearing a stall bit discards the stored packet first. -/
theorem test_out_stall :
    let s := withSys fun y => { y with outStallReg := 2, outFifo := [0x44], outAvailSys := true }
    (after (exec (.wOutStall 0) s)).s2u = [.outAck, .outStall 0] ∧ (after (exec (.wOutStall 0) s)).sys.outFifo = [] ∧
    (after (exec (.wOutStall 3) s)).sys.outFifo = [0x44] := by decide

/-- V-EV-1 to V-EV-4: the event registers of each window, with all bits written. -/
theorem test_ev_reads :
    let s := withSys fun y => { y with pending := ⟨1, 1, 2, 3⟩, enable := ⟨2, 1, 1, 3⟩ }
    (after (exec .rDcEvPending s)).readLog = [1] ∧ (after (exec .rSetupEvPending s)).readLog = [1] ∧
    (after (exec .rInEvPending s)).readLog = [2] ∧ (after (exec .rOutEvPending s)).readLog = [3] ∧
    (after (exec .rDcEvEnable s)).readLog = [2] ∧ (after (exec .rSetupEvEnable s)).readLog = [1] ∧
    (after (exec .rInEvEnable s)).readLog = [1] ∧ (after (exec .rOutEvEnable s)).readLog = [3] ∧
    s.irq .dc = false ∧ s.irq .setup = true ∧ s.irq .inEp = false ∧ s.cpuIrq 3 = true := by decide

/-- V-EV-3: a W1C clears only the bits written as 1, of its own line. -/
theorem test_ev_pending_writes :
    let s := withSys fun y => { y with pending := ⟨3, 1, 3, 3⟩ }
    (after (exec (.wDcEvPending 0xFFFFFFFE) s)).sys.pending = ⟨1, 1, 3, 3⟩ ∧
    (after (exec (.wSetupEvPending 1) s)).sys.pending = ⟨3, 0, 3, 3⟩ ∧
    (after (exec (.wInEvPending 1) s)).sys.pending = ⟨3, 1, 2, 3⟩ ∧
    (after (exec (.wOutEvPending 2) s)).sys.pending = ⟨3, 1, 3, 1⟩ := by decide

/-- V-EV-1: only the bits of the line are kept. -/
theorem test_ev_enable_writes :
    (after (exec (.wDcEvEnable 0xFFFFFFFF) base)).sys.enable = ⟨3, 0, 0, 0⟩ ∧
    (after (exec (.wSetupEvEnable 0xFFFFFFFF) base)).sys.enable = ⟨0, 1, 0, 0⟩ ∧
    (after (exec (.wInEvEnable 2) base)).sys.enable = ⟨0, 0, 2, 0⟩ ∧
    (after (exec (.wOutEvEnable 0xFFFFFFFF) base)).sys.enable = ⟨0, 0, 0, 3⟩ := by decide

/-! ### The witnesses -/

/-- A value and a code each: every clause of `DcRegisterReads` has a state. -/
theorem witness_DcRegisterReads :
    (∀ d ∈ [DevState.detached, .powered, .default, .addressed, .configured],
      (withSys fun y => { y with mState := d }).sys.mState = d) ∧
    (∀ l ∈ [LineState.se0, .j, .k, .se1], (withSys fun y => { y with mLine := l }).sys.mLine = l) ∧
    base.sys.mSpeed = .full ∧ detached.sys.mSpeed = .none := by decide

theorem witness_OutDataReadPops :
    base.sys.outFifo = [] ∧ (withSys fun y => { y with outFifo := [0x44, 0x45] }).sys.outFifo = 0x44 :: [0x45] := by
  decide

/-- Both values of a one-bit field: `DcWritesSendMessages`, `SetupAckClearsReady`, `InWritesSendMessages`. -/
theorem witness_strobes : (0xFFFFFFFF : Word).toNat % 2 = 1 ∧ (0xFFFFFFFE : Word).toNat % 2 = 0 := by decide

/-- A write that clears bit 15, and one that clears none. -/
theorem witness_InStallWrite :
    let s := withSys fun y => { y with inStallReg := 0x8001 }
    (∃ n < 16, s.sys.inStallReg.getLsbD n = true ∧ (maskField 0x7FFF).getLsbD n = false) ∧
    (∀ n < 16, s.sys.inStallReg.getLsbD n = true → (maskField 0xFFFF).getLsbD n = true) := by decide

theorem witness_OutAckAndCtrlClear :
    (withSys fun y => { y with outAvailSys := true }).sys.outAvailSys = true ∧ base.sys.outAvailSys = false ∧
    (1 : Word).toNat % 2 = 1 ∧ (2 : Word).toNat % 2 = 0 := by decide

theorem witness_OutStallAndEnableWrites :
    let s := withSys fun y => { y with outStallReg := 0x8001, outAvailSys := true }
    (∃ n < 16, s.sys.outStallReg.getLsbD n = true ∧ (maskField 0x7FFF).getLsbD n = false) ∧ s.sys.outAvailSys = true ∧
    (∀ n < 16, s.sys.outStallReg.getLsbD n = true → (maskField 0xFFFF).getLsbD n = true) ∧
    base.sys.outAvailSys = false := by decide

theorem witness_UnacceptedTokenIgnored :
    detached.usb.devState = .detached ∧ (withUsb fun u => { u with devState := .powered }).usb.devState = .powered ∧
    (127 : DevAddr) ≠ base.usb.address := by decide

theorem witness_SetupAndOutTokensOpen :
    base.usb.devState = .default ∧ base.usb.outEn.getLsbD (0 : Ep).toNat = true ∧
    base.usb.outEn.getLsbD (15 : Ep).toNat = false := by decide

theorem witness_InTokenAnswers :
    let s := withUsb fun u => { u with devState := .configured, address := 127, inEn := 0x8007, inStall := 0x8000, inReady := 2 }
    s.usb.devState = .configured ∧ s.usb.inEn.getLsbD (3 : Ep).toNat = false ∧
    (s.usb.inEn.getLsbD (15 : Ep).toNat = true ∧ s.usb.inStall.getLsbD (15 : Ep).toNat = true) ∧
    (s.usb.inEn.getLsbD (1 : Ep).toNat = true ∧ s.usb.inStall.getLsbD (1 : Ep).toNat = false ∧
      s.usb.inReady.getLsbD (1 : Ep).toNat = true) ∧
    (s.usb.inEn.getLsbD (0 : Ep).toNat = true ∧ s.usb.inStall.getLsbD (0 : Ep).toNat = false ∧
      s.usb.inReady.getLsbD (0 : Ep).toNat = false) := by decide

theorem witness_AckCommitsInTransfer :
    (withUsb fun u => { u with inFifo := [1, 2, 3], inReady := 2, xact := .inHandshake 1 2 }).usb.xact =
      .inHandshake 1 2 := by decide

theorem witness_SetupDataPacket :
    (withUsb fun u => { u with xact := .setupData 15 }).usb.xact = .setupData 15 ∧ ([1, 2, 3] : List Byte).length ≠ 8 ∧
    ([1, 2, 3, 4, 5, 6, 7, 8] : List Byte) = [1, 2, 3, 4, 5, 6, 7, 8] := by decide

/-- Each clause of `OutDataPacket`: oversize (65 bytes), stalled, back-pressure, duplicate, stored. -/
theorem witness_OutDataPacket :
    let s := withUsb fun u => { u with xact := .outData 1, outStall := 2 }
    let n := withUsb fun u => { u with xact := .outData 1, outAvail := true }
    let d := withUsb fun u => { u with xact := .outData 1, toggleOut := 2 }
    s.usb.xact = .outData 1 ∧ s.cfg.outDepth < (List.replicate 65 (0 : Byte)).length ∧
    (List.replicate 64 (0 : Byte)).length ≤ s.cfg.outDepth ∧
    s.usb.outStall.getLsbD (1 : Ep).toNat = true ∧
    (n.usb.outStall.getLsbD (1 : Ep).toNat = false ∧ n.usb.outAvail = true) ∧
    (d.usb.xact = .outData 1 ∧ d.usb.outStall.getLsbD (1 : Ep).toNat = false ∧ d.usb.outAvail = false ∧
      d.usb.toggleOut.getLsbD (1 : Ep).toNat ≠ false ∧ d.usb.toggleOut.getLsbD (1 : Ep).toNat = true) := by decide

theorem witness_OtherPacketsEndTransaction :
    (∀ ep n, (withUsb fun u => { u with xact := .outData 2 }).usb.xact ≠ .inHandshake ep n) ∧ base.usb.xact = .idle ∧
    ∃ ep n, (withUsb fun u => { u with xact := .inHandshake 2 1 }).usb.xact = .inHandshake ep n :=
  ⟨nofun, rfl, 2, 1, rfl⟩

/-- With `timeout`, with a NAK packet, and with an IN token to another, stalled endpoint, which sends its STALL report. -/
theorem witness_UnacknowledgedInDataIsResent :
    let s := withUsb fun u => { u with inReady := 1, inFifo := [0x44], inEn := 3, inStall := 2 }
    (∃ t u v w, exec (.pidIn base.usb.address 0) s = .next t ∧ t.usb.xact = .inHandshake 0 1 ∧
      act .timeout t = .next u ∧ exec .pidNak t = .next v ∧
      exec (.pidIn base.usb.address 1) t = .next w ∧ w.u2s = [.inStalled 1]) ∧
    ¬(([0x5A] : List Byte) = [0xD2] ∧ false = false) := ⟨⟨_, _, _, _, rfl, rfl, rfl, rfl, rfl, rfl⟩, by decide⟩

theorem witness_BusResetClearsCore :
    detached.usb.devState = .detached ∧ base.usb.devState ≠ .detached := by decide

theorem witness_EnableDisableSoftReset :
    let e := { detached with s2u := [.enable true] }
    let d := withS2U [.enable false, .softReset]
    let p := withUsb fun u => { u with devState := .powered }
    (e.s2u = .enable true :: [] ∧ e.usb.devState = .detached) ∧
    (d.s2u = .enable false :: [.softReset] ∧ d.usb.devState ≠ .detached) ∧
    ({ p with s2u := [.softReset] } : State).s2u = .softReset :: [] ∧ p.usb.devState = .powered ∧
    (base.usb.devState ≠ .detached ∧ base.usb.devState ≠ .powered) := by decide

theorem witness_AddressAndConfiguredMessages :
    let s := withS2U [.address 127]
    let z := withS2U [.address 0]
    let c := withS2U [.configured true]
    s.s2u = .address 127 :: [] ∧ s.usb.devState = .default ∧ (127 : DevAddr) ≠ 0 ∧ z.s2u = .address 0 :: [] ∧
    c.s2u = .configured true :: [] ∧ detached.usb.devState = .detached ∧
    (withUsb fun u => { u with devState := .addressed, address := 5 }).usb.devState = .addressed ∧
    (withUsb fun u => { u with devState := .configured, address := 5 }).usb.devState = .configured ∧
    (withS2U [.configured false]).s2u = .configured false :: [] := by decide

theorem witness_DevStateTransitions :
    ∃ t, act .s2u { detached with s2u := [.enable true] } = .next t ∧ t.usb.devState ≠ detached.usb.devState :=
  ⟨_, rfl, by decide⟩

theorem witness_SpeedChangesOnlyAtReset :
    ∃ t, act .busReset (withUsb fun u => { u with devState := .powered, speed := .none }) = .next t ∧
      t.usb.speed ≠ .none := ⟨_, rfl, by decide⟩

theorem witness_LineStateChange : LineState.j ≠ base.lineState ∧ LineState.se0 = base.lineState := by decide

/-- `InFifoMessages`: one state per clause, at the boundary of the depth for the two push clauses. -/
theorem witness_InFifoMessages :
    let below := { withUsb (fun u => { u with inFifo := List.replicate 63 0 }) with s2u := [.inPush 7] }
    let full := { withUsb (fun u => { u with inFifo := List.replicate 64 0 }) with s2u := [.inPush 7] }
    (below.s2u = .inPush 7 :: [] ∧ below.usb.inFifo.length < below.cfg.inDepth) ∧
    (full.s2u = .inPush 7 :: [] ∧ full.cfg.inDepth ≤ full.usb.inFifo.length) ∧
    (withS2U [.inReady 15]).s2u = .inReady 15 :: [] ∧ (withS2U [.inStall 1]).s2u = .inStall 1 :: [] ∧
    (withS2U [.inFifoReset]).s2u = .inFifoReset :: [] := by decide

theorem witness_EnableAndOutMessages :
    (withS2U [.inEn 3]).s2u = .inEn 3 :: [] ∧ (withS2U [.outEn 3]).s2u = .outEn 3 :: [] ∧
    (withS2U [.outAck]).s2u = .outAck :: [] ∧ (withS2U [.outStall 1]).s2u = .outStall 1 :: [] := by decide

theorem witness_deliveries :
    (withU2S [.reset .bus]).u2s = .reset .bus :: [] ∧
    (withU2S [.setup 0 ⟨1, 2, 3, 4, 5, 6, 7, 8⟩ true]).u2s = .setup 0 ⟨1, 2, 3, 4, 5, 6, 7, 8⟩ true :: [] ∧
    (withU2S [.devState .powered 0 .none]).u2s = .devState .powered 0 .none :: [] ∧
    (withU2S [.line .k]).u2s = .line .k :: [] ∧ (withU2S [.speed]).u2s = .speed :: [] ∧
    (withU2S [.inStatus 1 64 true]).u2s = .inStatus 1 64 true :: [] ∧ (withU2S [.inDone 1]).u2s = .inDone 1 :: [] ∧
    (withU2S [.inStalled 1]).u2s = .inStalled 1 :: [] ∧ (withU2S [.outData 1 [4]]).u2s = .outData 1 [4] :: [] ∧
    (withU2S [.outStalled 1]).u2s = .outStalled 1 :: [] := by decide

theorem witness_StepRunsDecodedInstruction :
    (withAgenda [.input (.csrRead 0x80000014)]).agenda = .input (.csrRead 0x80000014) :: [] ∧ base.agenda = [] ∧
    decode base.cfg.csrBase (.csrRead 0x80000014) = .ok .rDcAddress := by decide +kernel

theorem witness_MalformedPacketDropped :
    (withAgenda [.input (.packet [0xD2, 0] false)]).agenda = .input (.packet [0xD2, 0] false) :: [] ∧
    classify [0xD2, 0] false = .malformed .handshakeLength := by decide

/-- The last register of the last window, at 0x80003028. -/
theorem witness_RegisterAtItsAddress :
    let s := withAgenda [.input (.csrRead 0x80003028)]
    (0x80003028 : Word).toNat =
      s.cfg.csrBase.toNat + 0x1000 * Reg.outCtrl.window.number.toNat + Reg.outCtrl.offset.toNat ∧
    s.agenda = .input (.csrRead 0x80003028) :: [] := by decide

/-- The word after the last register, the word below the first window and the word above the last. -/
theorem witness_BusMissCompletes :
    base.cfg.csrBase.toNat = 0x80000000 ∧ ∀ a ∈ ([0x8000302C, 0x7FFFFFFC, 0x80004000] : List Nat), a % 4 = 0 ∧
      ∀ r : Reg, a ≠ 0x80000000 + 0x1000 * r.window.number.toNat + r.offset.toNat := by
  refine ⟨by decide +kernel, ?_⟩
  simp only [List.mem_cons, List.not_mem_nil, or_false, forall_eq_or_imp, forall_eq]
  refine ⟨⟨by decide, ?_⟩, ⟨by decide, ?_⟩, by decide, ?_⟩ <;> intro r <;> cases r <;> decide +kernel

theorem witness_MisalignedAccessRefused :
    (0x80000002 : Word).toNat % 4 ≠ 0 ∧
    (withAgenda [.input (.csrWrite 0x80000002 1)]).agenda =
      .input (.csrWrite 0x80000002 1) :: [] := by decide

/-- Registers at a common base, at the last page, and the base up to which every register has an address. -/
theorem witness_DecodeEncode :
    Instr.encodable cfg.csrBase .rOutCtrl = true ∧ Instr.encodable lastPage.csrBase (.wDcConfigured 1) = true ∧
    ({ cfg with csrPage := 0xFFFFC } : Config).csrBase.toNat = 0xFFFFC000 := by decide +kernel

theorem witness_EncodeDecode :
    decode cfg.csrBase (.packet [0x69, 0x05, 0xD0] false) = .ok (.pidIn 5 0) ∧
    decode lastPage.csrBase (.csrWrite 0xFFFFF014 5) = .ok (.wDcAddress 5) := by decide +kernel

/-- A state inside an IN transfer, with an OUT packet on its way and one message to apply, meets `State.Inv`. -/
theorem witness_StepKeepsInv :
    let s : State := { withUsb (fun u =>
        { u with devState := .addressed, address := 5, inFifo := [1, 2], inReady := 1, xact := .inHandshake 0 2 }) with
      u2s := [.outData 1 [3]], agenda := [.u2s] }
    s.Inv ∧ ∃ t, step s = .next t :=
  ⟨⟨by decide, by decide, by decide, by decide, by decide, by decide⟩, _, rfl⟩

/-- A state with a stale mirror and the update that settles it in flight meets `State.MirrorsFollow`. -/
theorem witness_StepKeepsMirrorsFollow :
    let s : State := { withUsb (fun u => { u with inFifo := [1], inReady := 1 }) with
      u2s := [.inStatus 1 1 false], agenda := [.busReset] }
    s.MirrorsFollow ∧ ∃ t, step s = .next t := ⟨⟨rfl, rfl, rfl, rfl, rfl, rfl⟩, _, rfl⟩

/-- A packet in flight: `StepKeepsOutConserved` with its delivery, and both clauses of `NoUnreadPacketReplaced`. -/
theorem witness_OutConserved :
    let s : State := { withUsb (fun u => { u with outAvail := true }) with u2s := [.outData 1 [4]] }
    s.OutConserved ∧ s.noClear .u2s = true ∧ (∃ t, act .u2s s = .next t) ∧ s.u2s = .outData 1 [4] :: [] ∧
    base.OutConserved ∧ base.quiescent = true :=
  ⟨by unfold State.OutConserved; decide, by decide, ⟨_, rfl⟩, rfl, by unfold State.OutConserved; decide, by decide⟩

/-- Steps of each agent: `ConfigurationNeverWritten`, `DomainsIsolated`, `ChannelsAppendOnly`. -/
theorem witness_steps :
    (∃ t, step (withAgenda [.busReset]) = .next t) ∧ (∃ t, act (wReg cfg .inData 5) base = .next t) ∧
    isFw (wReg cfg .inData 5) = true ∧ (∃ t, act .u2s (withU2S [.line .k]) = .next t) ∧
    (∃ t, act (handshake .ack) base = .next t) ∧ isFw (handshake .ack) = false ∧
    ∃ t, act .busReset { withS2U [.outAck] with cfg := { cfg with s2uFlushOnReset := true } } = .next t ∧ t.s2u = [] :=
  ⟨⟨_, rfl⟩, ⟨_, rfl⟩, rfl, ⟨_, rfl⟩, ⟨_, rfl⟩, rfl, _, rfl, rfl⟩

/-- The two agents in turn, from `s`. -/
def turns (s : State) : Nat → State
  | 0 => s
  | n + 1 => if n % 2 = 0 then deliverU2S (turns s n) else deliverS2U (turns s n)

/-- Any state with messages in both channels, and the two agents in turn. -/
theorem witness_FairRunsDeliver :
    let s : State := { base with u2s := [.line .k, .speed], s2u := [.outAck, .inReady 1] }
    let σ : Nat → Action := fun n => if n % 2 = 0 then .u2s else .s2u
    Run σ (turns s) ∧ Fair σ (turns s) ∧ (turns s 0).u2s = [.line .k] ++ .speed :: [] ∧
    (turns s 0).s2u = [.outAck] ++ .inReady 1 :: [] := by
  intro s σ
  refine ⟨fun n => ⟨(turns s n).agenda, (turns s n).draws, ?_⟩,
    ⟨fun n => ⟨2 * n + 1, by omega, .inr (if_neg (by omega))⟩, fun n => ⟨2 * n, by omega, .inr (if_pos (by omega))⟩⟩, rfl, rfl⟩
  simp only [σ, turns]
  split <;> rfl

theorem witness_ChannelsDeliverInOrder :
    let s : State := { withU2S [.line .k, .line .j, .speed] with agenda := List.replicate 2 .u2s ++ [.timeout] }
    let r : State := { withS2U [.inPush 1, .inPush 2] with agenda := List.replicate 2 .s2u ++ [] }
    (s.agenda = List.replicate 2 .u2s ++ [.timeout] ∧ 2 ≤ s.u2s.length) ∧
    (r.agenda = List.replicate 2 .s2u ++ [] ∧ 2 ≤ r.s2u.length) := by decide

/-- `after` is `base` where there is no next state, so a longer `txLog` shows one. -/
theorem witness_TransmitsOnlyAnswers :
    (after (act (hostPacket [0x69, 0x00, 0x10]) base)).txLog ≠ base.txLog := by decide +kernel

theorem witness_PendingBitsSetByDeliveries :
    (withU2S [.inDone 1]).u2s = .inDone 1 :: [] ∧ (∃ t, act .u2s (withU2S [.inDone 1]) = .next t) ∧
    ∃ t, act (w1c cfg .dc 1) (withSys fun y => { y with pending := ⟨3, 0, 0, 0⟩ }) = .next t ∧
      t.sys.pending ≠ ⟨3, 0, 0, 0⟩ := ⟨rfl, ⟨_, rfl⟩, _, rfl, by decide⟩

/-- A stall of endpoint 15 that firmware clears, on each side. -/
theorem witness_StallPersists :
    let s : State := { withUsb (fun u => { u with inStall := 0x8000 }) with s2u := [.inStall 0] }
    let o : State := { withUsb (fun u => { u with outStall := 0x8000 }) with s2u := [.outStall 0] }
    (∃ t, act .s2u s = .next t ∧ s.usb.inStall.getLsbD (15 : Ep).toNat = true ∧
      t.usb.inStall.getLsbD (15 : Ep).toNat = false) ∧
    ∃ t, act .s2u o = .next t ∧ o.usb.outStall.getLsbD (15 : Ep).toNat = true ∧
      t.usb.outStall.getLsbD (15 : Ep).toNat = false :=
  ⟨⟨_, rfl, by decide, by decide⟩, _, rfl, by decide, by decide⟩

/-- One state for each way an IN toggle changes: the commit, a SETUP, a new enable, a bus reset, power-on. -/
theorem witness_InToggleChanges :
    let c := withUsb fun u => { u with inReady := 1, xact := .inHandshake 0 0 }
    let d := withUsb fun u => { u with xact := .setupData 0 }
    let one := withUsb fun u => { u with toggleIn := 2 }
    let e : State := { one with s2u := [.inEn 2] }
    (after (act (hostPacket [0xD2]) c)).usb.toggleIn = 1 ∧
    (after (exec (.pidData0 [1, 2, 3, 4, 5, 6, 7, 8]) d)).usb.toggleIn = 1 ∧ e.usb.inEn.getLsbD 1 = false ∧
    (after (act .s2u e)).usb.toggleIn = 0 ∧ (after (act .busReset one)).usb.toggleIn = 0 ∧
    (after (act .powerOn one)).usb.toggleIn = 0 := by decide +kernel

theorem witness_SetupChangeIsDetectable :
    (∃ t, act .u2s (withU2S [.setup 0 ⟨1, 2, 3, 4, 5, 6, 7, 8⟩ false]) = .next t ∧
      t.sys.setupData ≠ base.sys.setupData) ∧
    ∃ t, act (wReg cfg .setupAck 1) (withSys fun y => { y with setupReady := true }) = .next t ∧
      t.sys.setupReady = false := ⟨⟨_, rfl, by decide⟩, _, rfl, rfl⟩

theorem witness_LastSetupWins :
    let s : State := { withU2S [.setup 0 ⟨1, 2, 3, 4, 5, 6, 7, 8⟩ false, .setup 1 ⟨8, 7, 6, 5, 4, 3, 2, 1⟩ false] with
      agenda := [.u2s, .u2s] }
    s.agenda = .u2s :: .u2s :: [] ∧
    s.u2s = .setup 0 ⟨1, 2, 3, 4, 5, 6, 7, 8⟩ false :: .setup 1 ⟨8, 7, 6, 5, 4, 3, 2, 1⟩ false :: [] := by decide

end Sys2Proof.Tests
end

section
/-! Proofs of the state family (10_state.md): the parameters of a run, and the four interrupt outputs. -/

namespace Sys2Proof.Machine

open Sys2Proof

/-! ### The parameters of a run (R29) -/

theorem lineChange_cfg (ls : LineState) (s : State) : (lineChange ls s).cfg = s.cfg := by
  unfold lineChange
  split <;> rfl

/-- No agent's action writes the parameters. -/
theorem act_cfg {a : Action} {s t : State} (h : act a s = .next t) : t.cfg = s.cfg := by
  rcases act_cases h with ⟨_, access⟩ | ⟨_, _, _, rfl | packet⟩ | ⟨_, rfl⟩ | ⟨_, rfl⟩ | ⟨ls, _, rfl⟩ |
    ⟨_, ⟨_, rfl⟩ | ⟨m, rest, _, rfl⟩⟩ | ⟨_, ⟨_, rfl⟩ | ⟨m, rest, _, rfl⟩⟩ | ⟨_, rfl⟩
  · exact access.cfg
  · rfl
  · obtain ⟨-, -, -, hcfg, -⟩ := packet.frame
    exact hcfg
  · obtain ⟨-, -, -, -, hcfg, -⟩ := busReset_frame s
    exact hcfg
  · exact timeout_cfg s
  · exact lineChange_cfg ls s
  · rfl
  · obtain ⟨-, -, -, -, -, hcfg, -⟩ := applyS2U_frame m { s with s2u := rest }
    exact hcfg
  · rfl
  · rfl
  · exact powerOn_cfg s

/-- Settles O50: the fetch leaves the parameters alone, and so does the action it answers. -/
theorem configurationNeverWritten : Obligations.ConfigurationNeverWritten := by
  intro s t h
  obtain ⟨-, -, -, -, -, -, -, hfetch⟩ := fetch_frame s
  exact (act_cfg h).trans hfetch

/-! ### The interrupt outputs (R52) -/

/-- Zero-extension keeps the bits of a mask that fits a word. -/
theorem place_zero_getLsbD {w : Nat} (hw : w ≤ 32) (x : BitVec w) (k : Nat) : (place 0 x).getLsbD k = x.getLsbD k := by
  simp only [place, BitVec.shiftLeft_zero, BitVec.getLsbD_setWidth, Bool.and_eq_right_iff_imp, decide_eq_true_eq]
  intro h
  have := BitVec.lt_of_getLsbD h
  omega

/-- The zero-extended masks have a common bit exactly when the masks have one below their width. -/
theorem place_and_place_ne_zero_iff {w : Nat} (hw : w ≤ 32) (p e : BitVec w) :
    place 0 p &&& place 0 e ≠ 0 ↔ ∃ k < w, p.getLsbD k = true ∧ e.getLsbD k = true := by
  have hbit (k : Nat) : (place 0 p &&& place 0 e).getLsbD k = (p.getLsbD k && e.getLsbD k) := by
    rw [BitVec.getLsbD_and, place_zero_getLsbD hw, place_zero_getLsbD hw]
  constructor
  · contrapose!
    intro hnone
    refine BitVec.eq_of_getLsbD_eq fun k _ => ?_
    rw [hbit]
    by_cases hk : k < w
    · simpa using hnone k hk
    · simp [BitVec.getLsbD_of_ge p k (by omega)]
  · rintro ⟨k, _, hp, he⟩ hzero
    have := hbit k
    simp [hzero, hp, he] at this

theorem irq_iff (s : State) (l : Line) :
    s.irq l = true ↔ s.sys.pending.read l &&& s.sys.enable.read l ≠ 0 := bne_iff_ne

/-- Settles O15: `irq` asks the two zero-extended masks of the line for a common bit. -/
theorem irqIsPendingAndEnable : Obligations.IrqIsPendingAndEnable := by
  intro s
  have two (p e : BitVec 2) := place_and_place_ne_zero_iff (by decide) p e
  have one (p e : BitVec 1) :
      place 0 p &&& place 0 e ≠ 0 ↔ p.getLsbD 0 = true ∧ e.getLsbD 0 = true := by
    simpa only [Nat.lt_one_iff, exists_eq_left] using place_and_place_ne_zero_iff (by decide) p e
  exact ⟨(irq_iff s .dc).trans (two _ _), (irq_iff s .setup).trans (one _ _), (irq_iff s .inEp).trans (two _ _),
    (irq_iff s .outEp).trans (two _ _)⟩

end Sys2Proof.Machine
end

section
/-! Proofs of the memory family (20_memory.md): accesses at addresses that are no register's, misaligned accesses, and the
accesses that R89 makes empty. -/

namespace Sys2Proof.Machine

open Sys2Proof

/-! ### Accesses that decode to no instruction -/

section

variable {s : State} {rest : List Action} {a v : Word} {r : Reject}

theorem step_csrRead_of_error (hagenda : s.agenda = .input (.csrRead a) :: rest)
    (h : decodeAccess s.cfg.csrBase a Reg.readInstr = .error r) :
    step s = rejectInput (.csrRead a) r { s with agenda := rest } := by
  simp only [step_cons hagenda, act, runInput, decode, h]

theorem step_csrWrite_of_error (hagenda : s.agenda = .input (.csrWrite a v) :: rest)
    (h : decodeAccess s.cfg.csrBase a (Reg.writeInstr v) = .error r) :
    step s = rejectInput (.csrWrite a v) r { s with agenda := rest } := by
  simp only [step_cons hagenda, act, runInput, decode, h]

end

/-! ### Accesses at addresses that are no register's (R83, R84) -/

/-- An address decoded to a register is `CSR_BASE` plus that register's displacement, without wrapping. -/
theorem toNat_of_busTarget_eq_reg {base a : Word} {r : Reg} (h : busTarget base a = .reg r) :
    a.toNat = base.toNat + 0x1000 * r.window.number.toNat + r.offset.toNat := by
  obtain ⟨rfl, hle⟩ := busTarget_eq_reg h
  rw [busAddr_toNat ((le_busAddr_iff base r).1 hle), busOff_toNat, Nat.add_assoc]

/-- An aligned access at an address that is no register's misses: outside the windows or at an undefined offset. -/
theorem decodeAccess_miss {base a : Word} (sel : Reg → Instr) (haligned : a.toNat % 4 = 0)
    (hreg : ∀ r : Reg, a.toNat ≠ base.toNat + 0x1000 * r.window.number.toNat + r.offset.toNat) :
    decodeAccess base a sel = .error .noDevice ∨ decodeAccess base a sel = .error .undefinedOffset := by
  simp only [decodeAccess, (alignedAddr_iff a).2 haligned]
  cases h : busTarget base a with
  | noDevice => exact .inl rfl
  | undefinedOffset => exact .inr rfl
  | reg r => exact absurd (toNat_of_busTarget_eq_reg h) (hreg r)

/-- Settles O38: the access misses, and both kinds of miss complete in the same way. -/
theorem busMissCompletes : Obligations.BusMissCompletes := by
  intro s rest a v haligned hreg
  constructor <;> intro hagenda
  · rcases decodeAccess_miss Reg.readInstr haligned hreg with h | h <;> exact step_csrRead_of_error hagenda h
  · rcases decodeAccess_miss (Reg.writeInstr v) haligned hreg with h | h <;> exact step_csrWrite_of_error hagenda h

/-! ### Misaligned accesses (R88) -/

theorem decodeAccess_misaligned {base a : Word} (sel : Reg → Instr) (h : a.toNat % 4 ≠ 0) :
    decodeAccess base a sel = .error .misaligned := by
  have hfalse : alignedAddr a = false := by rwa [← Bool.not_eq_true, alignedAddr_iff]
  rw [decodeAccess, if_pos hfalse]

/-- Settles O39: alignment is tested before the address is looked up. -/
theorem misalignedAccessRefused : Obligations.MisalignedAccessRefused := by
  intro s rest a v h
  constructor <;> intro hagenda
  · exact step_csrRead_of_error hagenda (decodeAccess_misaligned Reg.readInstr h)
  · exact step_csrWrite_of_error hagenda (decodeAccess_misaligned (Reg.writeInstr v) h)

/-! ### Empty reads and writes (R89) -/

/-- Settles O1, register by register. -/
theorem writeOnlyReadsAndReadOnlyWrites : Obligations.WriteOnlyReadsAndReadOnlyWrites := by
  intro s v
  constructor <;> intro i hi <;> fin_cases hi <;> rfl

end Sys2Proof.Machine
end

section
/-! Proofs of the link-layer family (40_link_layer.md): malformed packets. -/

namespace Sys2Proof.Machine

open Sys2Proof

/-! ### Malformed packets (R148) -/

/-- A malformed packet is no instruction, whatever the test it fails and wherever the registers stand. -/
theorem decode_packet_of_malformed {bytes : List Byte} {err : Bool} {why : Malformed} (base : Word)
    (h : classify bytes err = .malformed why) : decode base (.packet bytes err) = .error (.malformed why) := by
  simp only [decode, h, PacketClass.instr]

theorem act_malformed_packet {bytes : List Byte} {err : Bool} {why : Malformed} (s : State)
    (h : classify bytes err = .malformed why) : act (.input (.packet bytes err)) s = .next s := by
  simp only [act, runInput, decode_packet_of_malformed s.cfg.csrBase h, rejectInput]

/-- Settles O36: the step takes the packet from the agenda, and the packet, which is no instruction, changes nothing. -/
theorem malformedPacketDropped : Obligations.MalformedPacketDropped := by
  intro s rest bytes err why hagenda hclass
  calc step s = act (.input (.packet bytes err)) { s with agenda := rest } := step_cons hagenda
    _ = .next { s with agenda := rest } := act_malformed_packet _ hclass

end Sys2Proof.Machine
end

section
/-! Proofs of the device-controller family (41_device_controller.md): the messages that move the device state, the bus
reset, the deliveries to the system domain, and the accesses of window 0. -/

namespace Sys2Proof.Machine

open Sys2Proof

/-! ### The head message of a channel (R25, R26) -/

/-- A step of `S2U` answers what the rule of the head message makes of the state without that message. -/
theorem act_s2u_eq {s t : State} {m : S2UMsg} {rest : List S2UMsg} (hhead : s.s2u = m :: rest)
    (h : applyS2U m { s with s2u := rest } = t) : act .s2u s = .next t := by
  simp only [act, deliverS2U, hhead, h]

theorem act_u2s_eq {s : State} {m : U2SMsg} {rest : List U2SMsg} (hhead : s.u2s = m :: rest) :
    act .u2s s = .next { s with u2s := rest, sys := s.sys.take m } := by
  simp only [act, deliverU2S, hhead, State.modSys]

/-! ### The core clear (R171) -/

theorem sendDevState_eq (s : State) :
    sendDevState s = { s with u2s := s.u2s ++ [.devState s.usb.devState s.usb.address s.usb.speed] } := rfl

theorem coreClear_eq (kind : ResetKind) (s : State) :
    coreClear kind s = { s with usb := s.usb.cleared, u2s := s.u2s ++ [.reset kind, .inStatus 0 0 false] } := by
  simp only [coreClear, State.modUsb, State.sendU2S, List.append_assoc, List.singleton_append]

/-- Of the USB-domain rows of R61, the core clear leaves out the device state and the speed only. -/
theorem Usb.cleared_eq (u : Usb) : u.cleared = { Usb.reset with devState := u.devState, speed := u.speed } := rfl

/-! ### Enable, disable and soft reset (R176, R177, R180) -/

section

variable {s : State}

theorem applyEnable_true_of_detached (h : s.usb.devState = .detached) :
    applyEnable true s =
      { s with
        usb := { s.usb with devState := .powered }
        u2s := s.u2s ++ [.devState .powered s.usb.address s.usb.speed] } := by
  simp [applyEnable, h, sendDevState_eq, State.modUsb]

theorem applyEnable_true_of_ne_detached (h : s.usb.devState ≠ .detached) : applyEnable true s = s := by
  simp [applyEnable, h]

theorem applyEnable_false_of_detached (h : s.usb.devState = .detached) : applyEnable false s = s := by
  simp [applyEnable, h]

theorem applyEnable_false_of_ne_detached (h : s.usb.devState ≠ .detached) :
    applyEnable false s =
      { s with
        usb := Usb.reset
        u2s := s.u2s ++ [.reset .soft, .inStatus 0 0 false, .devState .detached 0 .none] } := by
  simp [applyEnable, h, coreClear_eq, Usb.cleared_eq, sendDevState_eq, State.modUsb, Usb.reset]

theorem applySoftReset_of_detached (h : s.usb.devState = .detached) : applySoftReset s = s := by
  simp [applySoftReset, h]

theorem applySoftReset_of_powered (h : s.usb.devState = .powered) :
    applySoftReset s =
      { s with
        usb := { Usb.reset with devState := .powered, speed := s.usb.speed }
        u2s := s.u2s ++ [.reset .soft, .inStatus 0 0 false, .devState .powered 0 s.usb.speed] } := by
  simp [applySoftReset, h, coreClear_eq, Usb.cleared_eq, sendDevState_eq, Usb.reset]

theorem applySoftReset_of_ne (hdetached : s.usb.devState ≠ .detached) (hpowered : s.usb.devState ≠ .powered) :
    applySoftReset s =
      { s with
        usb := { Usb.reset with devState := .default, speed := s.usb.speed }
        u2s := s.u2s ++ [.reset .soft, .inStatus 0 0 false, .devState .default 0 s.usb.speed] } := by
  simp [applySoftReset, hdetached, hpowered, coreClear_eq, Usb.cleared_eq, sendDevState_eq, State.modUsb, Usb.reset]

end

/-- Settles O25, one equation per message and device state. -/
theorem enableDisableSoftReset : Obligations.EnableDisableSoftReset := by
  intro s rest
  refine ⟨fun hhead => ⟨fun h => ?_, fun h => ?_⟩, fun hhead => ⟨fun h => ?_, fun h => ?_⟩,
    fun hhead => ⟨fun h => ?_, fun h => ?_, fun h h' => ?_⟩⟩
  · exact act_s2u_eq hhead (applyEnable_true_of_detached h)
  · exact act_s2u_eq hhead (applyEnable_true_of_ne_detached h)
  · exact act_s2u_eq hhead (applyEnable_false_of_detached h)
  · exact act_s2u_eq hhead (applyEnable_false_of_ne_detached h)
  · exact act_s2u_eq hhead (applySoftReset_of_detached h)
  · exact act_s2u_eq hhead (applySoftReset_of_powered h)
  · exact act_s2u_eq hhead (applySoftReset_of_ne h h')

/-! ### Address and configuration (R178, R179) -/

section

variable {s : State} {a : DevAddr}

theorem applyAddress_of_detached_or_powered (h : s.usb.devState = .detached ∨ s.usb.devState = .powered) :
    applyAddress a s = s := by
  rcases h with h | h <;> simp [applyAddress, h]

theorem applyAddress_zero_of_default (h : s.usb.devState = .default) :
    applyAddress 0 s = { s with u2s := s.u2s ++ [.devState .default s.usb.address s.usb.speed] } := by
  simp [applyAddress, h, sendDevState_eq]

theorem applyAddress_ne_zero_of_default_or_addressed (ha : a ≠ 0)
    (h : s.usb.devState = .default ∨ s.usb.devState = .addressed) :
    applyAddress a s =
      { s with
        usb := { s.usb with address := a, devState := .addressed }
        u2s := s.u2s ++ [.devState .addressed a s.usb.speed] } := by
  rcases h with h | h <;> simp only [applyAddress, h, if_pos ha, sendDevState_eq, State.modUsb]

theorem applyAddress_ne_zero_of_configured (ha : a ≠ 0) (h : s.usb.devState = .configured) :
    applyAddress a s =
      { s with usb := { s.usb with address := a }, u2s := s.u2s ++ [.devState .configured a s.usb.speed] } := by
  simp only [applyAddress, h, if_pos ha, sendDevState_eq, State.modUsb]

theorem applyAddress_zero_of_addressed_or_configured
    (h : s.usb.devState = .addressed ∨ s.usb.devState = .configured) :
    applyAddress 0 s =
      { s with
        usb := { s.usb with address := 0, devState := .default }
        u2s := s.u2s ++ [.devState .default 0 s.usb.speed] } := by
  rcases h with h | h <;> simp [applyAddress, h, sendDevState_eq, State.modUsb]

theorem applyConfigured_true_of_addressed (h : s.usb.devState = .addressed) :
    applyConfigured true s =
      { s with
        usb := { s.usb with devState := .configured }
        u2s := s.u2s ++ [.devState .configured s.usb.address s.usb.speed] } := by
  simp [applyConfigured, h, sendDevState_eq, State.modUsb]

theorem applyConfigured_false_of_configured (h : s.usb.devState = .configured) :
    applyConfigured false s =
      { s with
        usb := { s.usb with devState := .addressed }
        u2s := s.u2s ++ [.devState .addressed s.usb.address s.usb.speed] } := by
  simp [applyConfigured, h, sendDevState_eq, State.modUsb]

theorem applyConfigured_of_ne {v : Bool} (haddressed : ¬(s.usb.devState = .addressed ∧ v = true))
    (hconfigured : ¬(s.usb.devState = .configured ∧ v = false)) : applyConfigured v s = s := by
  unfold applyConfigured
  split
  · exact absurd ⟨‹_›, rfl⟩ haddressed
  · exact absurd ⟨‹_›, rfl⟩ hconfigured
  · rfl

end

/-- Settles O26, one equation per message, operand and device state. -/
theorem addressAndConfiguredMessages : Obligations.AddressAndConfiguredMessages := by
  intro s rest
  constructor
  · intro a hhead
    refine ⟨fun h => ?_, fun h ha => ?_, fun h ha => ?_, fun h ha => ?_, fun h ha => ?_⟩
    · exact act_s2u_eq hhead (applyAddress_of_detached_or_powered h)
    · subst ha; exact act_s2u_eq hhead (applyAddress_zero_of_default h)
    · exact act_s2u_eq hhead (applyAddress_ne_zero_of_default_or_addressed ha h)
    · exact act_s2u_eq hhead (applyAddress_ne_zero_of_configured ha h)
    · subst ha; exact act_s2u_eq hhead (applyAddress_zero_of_addressed_or_configured h)
  · intro v hhead
    refine ⟨fun h hv => ?_, fun h hv => ?_, fun h h' => ?_⟩
    · subst hv; exact act_s2u_eq hhead (applyConfigured_true_of_addressed h)
    · subst hv; exact act_s2u_eq hhead (applyConfigured_false_of_configured h)
    · exact act_s2u_eq hhead (applyConfigured_of_ne h h')

/-! ### The bus reset (R172 to R174) -/

/-- Settles O24: the core clear, then the state, the speed and the messages of R172; the speed message and the flush of
`s2u` each depend on one condition. -/
theorem busResetClearsCore : Obligations.BusResetClearsCore := by
  intro s
  constructor
  · intro h
    simp only [act, busReset, if_pos h]
  · intro h
    by_cases hfull : s.usb.speed = .full <;> by_cases hflush : s.cfg.s2uFlushOnReset = true <;>
      simp [act, busReset, h, hfull, hflush, coreClear_eq, Usb.cleared_eq, Usb.reset, sendDevState_eq, State.modUsb,
        State.sendU2S]

/-! ### Deliveries to the system domain (R182 to R185, R233 to R235, R260, R261) -/

/-- Raising the first cause of a line sets bit 0 and keeps bit 1. -/
theorem or_one_bits (x : BitVec 2) : (x ||| 0b01).getLsbD 0 = true ∧ (x ||| 0b01).getLsbD 1 = x.getLsbD 1 := by
  simp

/-- Raising the second cause of a line keeps bit 0 and sets bit 1. -/
theorem or_two_bits (x : BitVec 2) : (x ||| 0b10).getLsbD 0 = x.getLsbD 0 ∧ (x ||| 0b10).getLsbD 1 = true := by
  simp

/-- Settles O32: the kind decides the RESET bit only. -/
theorem resetDelivery : Obligations.ResetDelivery := by
  intro s kind rest hhead
  cases kind with
  | bus =>
    obtain ⟨hset, hkeep⟩ := or_one_bits s.sys.pending.dc
    exact ⟨_, hset.trans (Bool.or_true _).symm, hkeep, act_u2s_eq hhead⟩
  | soft => exact ⟨_, (Bool.or_false _).symm, rfl, act_u2s_eq hhead⟩

/-- Settles O34: each delivery is the `take` of its message, which raises at most one cause of a line. -/
theorem otherDeliveries : Obligations.OtherDeliveries := by
  intro s rest
  refine ⟨fun st a sp hhead => ?_, fun ls hhead => ?_, fun hhead => ?_, fun r l o hhead => ?_, fun ep hhead => ?_,
    fun ep hhead => ?_, fun ep bytes hhead => ?_, fun ep hhead => ?_⟩
  · exact act_u2s_eq hhead
  · exact act_u2s_eq hhead
  · obtain ⟨hkeep, hset⟩ := or_two_bits s.sys.pending.dc
    exact ⟨_, hkeep, hset, act_u2s_eq hhead⟩
  · exact act_u2s_eq hhead
  · obtain ⟨hset, hkeep⟩ := or_one_bits s.sys.pending.inEp
    exact ⟨_, hset, hkeep, act_u2s_eq hhead⟩
  · obtain ⟨hkeep, hset⟩ := or_two_bits s.sys.pending.inEp
    exact ⟨_, hkeep, hset, act_u2s_eq hhead⟩
  · obtain ⟨hset, hkeep⟩ := or_one_bits s.sys.pending.outEp
    exact ⟨_, hset, hkeep, act_u2s_eq hhead⟩
  · obtain ⟨hkeep, hset⟩ := or_two_bits s.sys.pending.outEp
    exact ⟨_, hkeep, hset, act_u2s_eq hhead⟩

/-! ### Reads of window 0 (R189, R190, R192, R197) -/

theorem place_zero_toNat {w : Nat} (hw : w ≤ 32) (x : BitVec w) : (place 0 x).toNat = x.toNat := by
  simp only [place, BitVec.shiftLeft_zero]
  exact BitVec.toNat_setWidth_of_le hw

/-- Bits 3 to 0 of `DC.STATUS`: the state code, with the reserved bit above it 0. -/
theorem statusWord_low (st : BitVec 3) (ls : BitVec 2) :
    (place 0 st ||| place 4 ls).extractLsb' 0 4 = st.setWidth 4 := by
  revert st ls
  decide

/-- Bits 31 to 4 of `DC.STATUS`: the line code, with the reserved bits above it 0. -/
theorem statusWord_high (st : BitVec 3) (ls : BitVec 2) :
    (place 0 st ||| place 4 ls).extractLsb' 4 28 = ls.setWidth 28 := by
  revert st ls
  decide

/-- Settles O2: every read answers by definition, and each value of a mirror has its code in its field. -/
theorem dcRegisterReads : Obligations.DcRegisterReads := by
  intro s
  have speed (sp : Speed) (h : s.sys.mSpeed = sp) : place 0 (speedCode s.sys.mSpeed) = place 0 (speedCode sp) := by
    rw [h]
  have state (d : DevState) (h : s.sys.mState = d) :
      (place 0 (stateCode s.sys.mState) ||| place 4 (lineCode s.sys.mLine)).extractLsb' 0 4 =
        (stateCode d).setWidth 4 := by
    rw [statusWord_low, h]
  have line (ls : LineState) (h : s.sys.mLine = ls) :
      (place 0 (stateCode s.sys.mState) ||| place 4 (lineCode s.sys.mLine)).extractLsb' 4 28 =
        (lineCode ls).setWidth 28 := by
    rw [statusWord_high, h]
  exact ⟨_, _, _, _, rfl, place_zero_toNat (by decide) _, rfl, speed .none, speed .full, rfl, state .detached,
    state .powered, state .default, state .addressed, state .configured, line .se0, line .j, line .k, line .se1, rfl,
    fun h => if_pos h, fun h => if_neg h⟩

/-! ### Writes of window 0 (R186, R188, R194, R196) -/

theorem bitField_eq (v : Word) : bitField v = decide (v.toNat % 2 = 1) := by
  simp [bitField, BitVec.getLsbD, Nat.testBit_zero]

theorem addressField_toNat (v : Word) : (addressField v).toNat = v.toNat % 128 := by
  simp [addressField, BitVec.extractLsb'_toNat]

/-- Settles O8: the message carries the field of the written value. -/
theorem dcWritesSendMessages : Obligations.DcWritesSendMessages := by
  intro s v
  refine ⟨?_, ⟨addressField v, addressField_toNat v, rfl⟩, fun h => ?_, fun h => ?_, ?_⟩
  · rw [← bitField_eq]; rfl
  · have hbit : bitField v = true := by rw [bitField_eq, h]; rfl
    simp only [exec, execWDcCtrl, if_pos hbit, State.sendS2U]
  · have hbit : ¬bitField v = true := by rw [bitField_eq, h]; decide
    simp only [exec, execWDcCtrl, if_neg hbit]
  · rw [← bitField_eq]; rfl

end Sys2Proof.Machine
end

section
/-! Proofs of the setup family (42_setup.md): the SETUP transaction, its delivery, and the accesses of window 1. -/

namespace Sys2Proof.Machine

open Sys2Proof

/-! ### The data packet of a SETUP (R201 to R204) -/

/-- The clear of an endpoint's bit under a condition, bit by bit. -/
theorem ite_clearEp_bit (c : Bool) (m : Mask) (n : Ep) (k : Nat) (hk : k < 16) :
    (if c = true then clearEp m n else m).getLsbD k = (m.getLsbD k && !(c && decide (k = n.toNat))) := by
  cases c with
  | false => simp
  | true => simp [clearEp_bit m n k hk]

theorem setupPacket_of_length_ne {payload : List Byte} (ep : Ep) (s : State) (h : payload.length ≠ 8) :
    setupPacket ep payload s = s.setXact .idle := by
  simp only [setupPacket, (ofPayload_eq_none_iff payload).2 h]

/-- `SETUP_CLEARS_STALL` decides the two stall masks only (R204). -/
theorem setupPacket_of_some {payload : List Byte} {d : SetupBytes} (ep : Ep) (s : State)
    (h : SetupBytes.ofPayload payload = some d) :
    setupPacket ep payload s =
      { s with
        usb := { s.usb with
          toggleOut := setEp s.usb.toggleOut ep
          toggleIn := setEp s.usb.toggleIn ep
          outStall := if s.cfg.setupClearsStall = true then clearEp s.usb.outStall ep else s.usb.outStall
          inStall := if s.cfg.setupClearsStall = true then clearEp s.usb.inStall ep else s.usb.inStall
          xact := .idle }
        u2s := s.u2s ++ [.setup ep d s.cfg.setupClearsStall]
        txLog := s.txLog ++ [handshakeBytes .ack] } := by
  cases hsc : s.cfg.setupClearsStall <;>
    simp [setupPacket, h, hsc, State.modUsb, State.sendU2S, State.tx, State.setXact]

/-- R201: both data PIDs run the same rule in `SetupData(ep)`. -/
theorem exec_data_of_setupData {s : State} {ep : Ep} {payload : List Byte} {i : Instr}
    (hxact : s.usb.xact = .setupData ep) (hi : i ∈ [Instr.pidData0 payload, .pidData1 payload]) :
    exec i s = .next (setupPacket ep payload s) := by
  fin_cases hi
  · simp only [exec, execPidData0, onData, hxact]
  · simp only [exec, execPidData1, onData, hxact]

/-- Settles O20: the PID does not matter, and the length decides between the two results of `setupPacket`. -/
theorem setupDataPacket : Obligations.SetupDataPacket := by
  intro s ep payload hxact i hi
  rw [exec_data_of_setupData hxact hi]
  constructor
  · intro hlen
    rw [setupPacket_of_length_ne ep s hlen]
    rfl
  · rintro b0 b1 b2 b3 b4 b5 b6 b7 rfl
    exact ⟨_, _, _, _, setEp_bit _ _, setEp_bit _ _, ite_clearEp_bit _ _ _, ite_clearEp_bit _ _ _,
      congrArg _ (setupPacket_of_some ep s rfl)⟩

/-! ### The SETUP and OUT tokens (R200, R250) -/

theorem answers_iff (d : DevState) : answers d = true ↔ d = .default ∨ d = .addressed ∨ d = .configured := by
  cases d <;> decide

section

variable {s : State} (ep : Ep) (h : answers s.usb.devState = true)

include h

/-- A token to the device address runs its action after the open transaction has ended. -/
theorem onToken_of_answers (f : State → State) : onToken s.usb.address f s = f (s.setXact .idle) := by
  have haccepted : tokenAccepted s.usb.address (s.setXact .idle) = true := (tokenAccepted_iff _ _).2 ⟨h, rfl⟩
  simp only [onToken, if_pos haccepted]

theorem exec_pidSetup_of_answers :
    exec (.pidSetup s.usb.address ep) s =
      .next (if testEp s.usb.outEn ep = true then s.setXact (.setupData ep) else s.setXact .idle) :=
  congrArg _ (onToken_of_answers h (setupToken ep))

theorem exec_pidOut_of_answers :
    exec (.pidOut s.usb.address ep) s =
      .next (if testEp s.usb.outEn ep = true then s.setXact (.outData ep) else s.setXact .idle) :=
  congrArg _ (onToken_of_answers h (outToken ep))

end

/-- Settles O17: the OUT enable bit alone decides the transaction state. -/
theorem setupAndOutTokensOpen : Obligations.SetupAndOutTokensOpen := by
  intro s ep hstate
  have hanswers := (answers_iff _).2 hstate
  rw [exec_pidSetup_of_answers ep hanswers, exec_pidOut_of_answers ep hanswers]
  constructor
  · intro (hen : testEp s.usb.outEn ep = true)
    rw [if_pos hen, if_pos hen]
    exact ⟨rfl, rfl⟩
  · intro (hen : testEp s.usb.outEn ep = false)
    have hdisabled : ¬testEp s.usb.outEn ep = true := ne_true_of_eq_false hen
    rw [if_neg hdisabled, if_neg hdisabled]
    exact ⟨rfl, rfl⟩

/-! ### The delivery of `E_SETUP` (R206) -/

theorem raise_setup (r : LineBits) : r.raise .setup = { r with setup := 1 } := by
  have hset : ∀ x : BitVec 1, x ||| 1 = 1 := by decide
  exact congrArg (fun x => { r with setup := x }) (hset r.setup)

/-- R206 in the words of the spec: the overwrite bit is set if the last packet was still waiting, and kept otherwise. -/
theorem takeSetup_eq (ep : Ep) (d : SetupBytes) (sc : Bool) (y : Sys) :
    y.takeSetup ep d sc =
      { y with
        setupOverwritten := if y.setupReady = true then true else y.setupOverwritten
        setupData := d, setupReady := true, setupEpno := ep
        pending := { y.pending with setup := 1 }
        inStallReg := if sc = true then clearEp y.inStallReg ep else y.inStallReg
        outStallReg := if sc = true then clearEp y.outStallReg ep else y.outStallReg } := by
  cases hready : y.setupReady <;> simp [Sys.takeSetup, raise_setup, hready]

/-- Settles O33: the delivery is `takeSetup`, whose two stall registers keep all bits but that of `ep`. -/
theorem setupDelivery : Obligations.SetupDelivery := by
  intro s ep d sc rest hhead
  refine ⟨_, _, ite_clearEp_bit sc _ ep, ite_clearEp_bit sc _ ep, ?_⟩
  rw [act_u2s_eq hhead, Sys.take, takeSetup_eq]

/-! ### The accesses of window 1 (R207, R209, R211) -/

/-- The value of `SETUP.STATUS`: its three fields do not overlap, and the bits above them are 0. -/
theorem setupStatusWord_toNat (ep : Ep) (o r : Bool) :
    (place 4 ep ||| placeBit 1 o ||| placeBit 0 r).toNat = 16 * ep.toNat + 2 * o.toNat + r.toNat := by
  revert ep o r
  decide

/-- Settles O3: each DATA read answers its byte zero-extended, the STATUS read the three fields. -/
theorem setupRegisterReads : Obligations.SetupRegisterReads := by
  intro s
  constructor
  · intro p hp
    fin_cases hp <;> exact ⟨_, rfl, place_zero_toNat (by decide) _⟩
  · exact ⟨_, rfl, setupStatusWord_toNat _ _ _⟩

theorem bitField_iff (v : Word) : bitField v = true ↔ v.toNat % 2 = 1 := by
  rw [bitField_eq, decide_eq_true_iff]

/-- Settles O9: bit 0 of the written value is the strobe. -/
theorem setupAckClearsReady : Obligations.SetupAckClearsReady := by
  intro s v
  constructor
  · intro h
    simp only [exec, execWSetupAck, if_pos ((bitField_iff v).2 h), State.modSys]
  · intro h
    have hbit : ¬bitField v = true := by rw [bitField_iff]; omega
    simp only [exec, execWSetupAck, if_neg hbit]

end Sys2Proof.Machine
end

section
/-! Proofs of the IN-endpoint family (43_in_endpoint.md): the answer to an IN token, the repeat of an unacknowledged packet,
and the accesses of window 2. -/

namespace Sys2Proof.Machine

open Sys2Proof

/-! ### The answer to an IN token (R220 to R224) -/

section

variable {s : State} {ep : Ep}

theorem inToken_of_disabled (hen : testEp s.usb.inEn ep = false) : inToken ep s = s := if_pos hen

theorem inToken_of_stalled (hen : testEp s.usb.inEn ep = true) (hstall : testEp s.usb.inStall ep = true) :
    inToken ep s = (s.tx (handshakeBytes .stall)).sendU2S (.inStalled ep) := by
  simp [inToken, hen, hstall]

theorem inToken_of_ready (hen : testEp s.usb.inEn ep = true) (hstall : testEp s.usb.inStall ep = false)
    (hready : testEp s.usb.inReady ep = true) :
    inToken ep s =
      (s.tx (dataBytes (togglePid (testEp s.usb.toggleIn ep)) s.usb.inFifo)).setXact
        (.inHandshake ep s.usb.inFifo.length) := by
  simp [inToken, hen, hstall, hready]

theorem inToken_of_not_ready (hen : testEp s.usb.inEn ep = true) (hstall : testEp s.usb.inStall ep = false)
    (hready : testEp s.usb.inReady ep = false) : inToken ep s = s.tx (handshakeBytes .nak) := by
  simp [inToken, hen, hstall, hready]

theorem exec_pidIn_of_answers (ep : Ep) (h : answers s.usb.devState = true) :
    exec (.pidIn s.usb.address ep) s = .next (inToken ep (s.setXact .idle)) :=
  congrArg _ (onToken_of_answers h (inToken ep))

end

/-- R115, R119: the packet byte by byte. -/
theorem dataBytes_togglePid (t : Bool) (payload : List Byte) :
    dataBytes (togglePid t) payload =
      (if t = true then 0x4B else 0xC3) ::
        (payload ++ [(crc16 payload).extractLsb' 0 8, (crc16 payload).extractLsb' 8 8]) := by
  cases t <;> rfl

/-- Settles O18, one clause per answer of R220. -/
theorem inTokenAnswers : Obligations.InTokenAnswers := by
  intro s ep hstate
  rw [exec_pidIn_of_answers ep ((answers_iff _).2 hstate)]
  refine ⟨fun hen => ?_, fun hen hstall => ?_, fun hen hstall hready => ?_, fun hen hstall hready => ?_⟩
  · exact congrArg _ (inToken_of_disabled hen)
  · exact congrArg _ (inToken_of_stalled hen hstall)
  · refine ⟨_, _, append_extractLsb' (m := 8) (n := 8) (crc16 s.usb.inFifo), ?_⟩
    rw [inToken_of_ready (s := s.setXact .idle) hen hstall hready, dataBytes_togglePid]
    rfl
  · exact congrArg _ (inToken_of_not_ready hen hstall hready)

/-! ### The packets that decode to a token or a handshake (R142, R143, R146) -/

/-- A packet that is not malformed is a PID byte, and the bytes after it decide its class. -/
theorem classify_cases (bytes : List Byte) (err : Bool) :
    (∃ why, classify bytes err = .malformed why) ∨
    ∃ pid rest, bytes = Pid.byte pid :: rest ∧ err = false ∧ classify bytes err = classifyPid pid rest := by
  unfold classify
  split
  · exact .inl ⟨_, rfl⟩
  · rename_i herr
    split
    · exact .inl ⟨_, rfl⟩
    · rename_i b rest
      split
      · rename_i hcheck
        exact .inr ⟨_, rest, by rw [byte_of_check b hcheck], Bool.eq_false_of_not_eq_true herr, rfl⟩
      · exact .inl ⟨_, rfl⟩

/-- The bytes that pass the test of a token are the encoding of its field. -/
theorem tokenTail_of_tokenField {rest : List Byte} {w : BitVec 11} (h : tokenField rest = .ok w) :
    rest = tokenTail w := by
  unfold tokenField at h
  split at h
  · rename_i b1 b2
    simp only at h
    split at h
    · rename_i hcrc
      cases h
      have hjoin := append_extractLsb' (m := 5) (n := 11) (b2 ++ b1)
      rw [tokenTail, ← hcrc]
      simp only [hjoin]
      rw [extractLsb'_append_low, extractLsb'_append_high]
    · cases h
  · cases h

theorem classifyPid_eq_token {pid : Pid} {rest : List Byte} {t : TokenPid} {addr : DevAddr} {ep : Ep}
    (h : classifyPid pid rest = .token t addr ep) : pid = .token t ∧ rest = tokenTail (ep ++ addr) := by
  unfold classifyPid at h
  split at h
  · split at h <;> cases h
    rename_i w hfield
    exact ⟨rfl, by rw [tokenTail_of_tokenField hfield, append_extractLsb' (m := 4) (n := 7) w]⟩
  · split at h <;> cases h
  · split at h <;> cases h
  · split at h <;> cases h
  · cases h

theorem classifyPid_eq_handshake {pid : Pid} {rest : List Byte} {p : HandshakePid}
    (h : classifyPid pid rest = .handshake p) : pid = .handshake p ∧ rest = [] := by
  unfold classifyPid at h
  split at h
  · split at h <;> cases h
  · split at h <;> cases h
  · split at h <;> cases h
  · split at h <;> cases h
    exact ⟨rfl, rfl⟩
  · cases h

section

variable {bytes : List Byte} {err : Bool}

theorem classify_eq_token {t : TokenPid} {addr : DevAddr} {ep : Ep} (h : classify bytes err = .token t addr ep) :
    bytes = tokenBytes t addr ep ∧ err = false := by
  rcases classify_cases bytes err with ⟨why, hmal⟩ | ⟨pid, rest, rfl, herr, hpid⟩
  · rw [h] at hmal; cases hmal
  · obtain ⟨rfl, rfl⟩ := classifyPid_eq_token (hpid.symm.trans h)
    exact ⟨rfl, herr⟩

theorem classify_eq_handshake {p : HandshakePid} (h : classify bytes err = .handshake p) :
    bytes = handshakeBytes p ∧ err = false := by
  rcases classify_cases bytes err with ⟨why, hmal⟩ | ⟨pid, rest, rfl, herr, hpid⟩
  · rw [h] at hmal; cases hmal
  · obtain ⟨rfl, rfl⟩ := classifyPid_eq_handshake (hpid.symm.trans h)
    exact ⟨rfl, herr⟩

theorem decode_packet_eq_ok {base : Word} {i : Instr} (h : decode base (.packet bytes err) = .ok i) :
    (classify bytes err).instr = .ok i := by
  simp only [decode] at h
  split at h <;> cases h
  assumption

theorem packet_of_decode_pidIn {base : Word} {addr : DevAddr} {ep : Ep}
    (h : decode base (.packet bytes err) = .ok (.pidIn addr ep)) : bytes = tokenBytes .inn addr ep ∧ err = false := by
  have hinstr := decode_packet_eq_ok h
  unfold PacketClass.instr at hinstr
  split at hinstr <;> cases hinstr
  exact classify_eq_token ‹_›

theorem packet_of_decode_pidAck {base : Word} (h : decode base (.packet bytes err) = .ok .pidAck) :
    bytes = handshakeBytes .ack ∧ err = false := by
  have hinstr := decode_packet_eq_ok h
  unfold PacketClass.instr at hinstr
  split at hinstr <;> cases hinstr
  exact classify_eq_handshake ‹_›

end

/-! ### The repeat of an unacknowledged packet (R226) -/

/-- R220: what makes the answer to an IN token for `ep` a data packet. -/
structure Usb.SendsInData (ep : Ep) (u : Usb) : Prop where
  answers : answers u.devState = true
  enabled : testEp u.inEn ep = true
  not_stalled : testEp u.inStall ep = false
  ready : testEp u.inReady ep = true

/-- R223: the data packet that answers an IN token for `ep`. -/
def Usb.inPacket (ep : Ep) (u : Usb) : List Byte := dataBytes (togglePid (testEp u.toggleIn ep)) u.inFifo

theorem exec_pidIn_of_sendsInData {s : State} {ep : Ep} (h : s.usb.SendsInData ep) :
    exec (.pidIn s.usb.address ep) s =
      .next ((s.tx (s.usb.inPacket ep)).setXact (.inHandshake ep s.usb.inFifo.length)) :=
  (exec_pidIn_of_answers ep h.answers).trans (congrArg _ (inToken_of_ready h.enabled h.not_stalled h.ready))

/-- The four answers to an accepted IN token (R220). -/
theorem inToken_cases (ep : Ep) (s : State) :
    (testEp s.usb.inEn ep = false ∧ inToken ep s = s) ∨
    (testEp s.usb.inEn ep = true ∧ testEp s.usb.inStall ep = true ∧
      inToken ep s = (s.tx (handshakeBytes .stall)).sendU2S (.inStalled ep)) ∨
    (testEp s.usb.inEn ep = true ∧ testEp s.usb.inStall ep = false ∧ testEp s.usb.inReady ep = true ∧
      inToken ep s = (s.tx (s.usb.inPacket ep)).setXact (.inHandshake ep s.usb.inFifo.length)) ∨
    inToken ep s = s.tx (handshakeBytes .nak) := by
  cases hen : testEp s.usb.inEn ep with
  | false => exact .inl ⟨rfl, inToken_of_disabled hen⟩
  | true =>
    cases hstall : testEp s.usb.inStall ep with
    | true => exact .inr (.inl ⟨rfl, rfl, inToken_of_stalled hen hstall⟩)
    | false =>
      cases hready : testEp s.usb.inReady ep with
      | true => exact .inr (.inr (.inl ⟨rfl, rfl, rfl, inToken_of_ready hen hstall hready⟩))
      | false => exact .inr (.inr (.inr (inToken_of_not_ready hen hstall hready)))

/-- Of the four answers, only a data packet opens the wait for a handshake. -/
theorem sendsInData_of_exec_pidIn {s t : State} {ep ep' : Ep} {n : Nat}
    (h : exec (.pidIn s.usb.address ep) s = .next t) (hxact : t.usb.xact = .inHandshake ep' n) :
    s.usb.SendsInData ep := by
  cases h
  rcases onToken_cases s.usb.address (inToken ep) s with ⟨haccepted, heq⟩ | ⟨-, heq⟩ <;> rw [heq] at hxact
  · obtain ⟨hanswers, -⟩ := (tokenAccepted_iff _ _).1 haccepted
    rcases inToken_cases ep (s.setXact .idle) with ⟨-, heq⟩ | ⟨-, -, heq⟩ | ⟨hen, hstall, hready, -⟩ | heq
    · rw [heq] at hxact; cases hxact
    · rw [heq] at hxact; cases hxact
    · exact ⟨hanswers, hen, hstall, hready⟩
    · rw [heq] at hxact; cases hxact
  · cases hxact

/-- R226: from `s` to `t` no IN packet is committed. Of the USB domain at most the open transaction changes, and no message
is sent, but for the report of a STALL (R222) to an IN token for one of the endpoints of `tokenFor`. -/
structure KeepsInData (tokenFor : Ep → Prop) (s t : State) : Prop where
  usb : ∃ x, t.usb = { s.usb with xact := x }
  u2s : t.u2s = s.u2s ∨
    ∃ q, tokenFor q ∧ testEp s.usb.inEn q = true ∧ testEp s.usb.inStall q = true ∧ t.u2s = s.u2s ++ [.inStalled q]

theorem KeepsInData.refl (P : Ep → Prop) (s : State) : KeepsInData P s s := ⟨⟨_, rfl⟩, .inl rfl⟩

theorem KeepsInData.setXact (P : Ep → Prop) (s : State) (x : Xact) : KeepsInData P s (s.setXact x) :=
  ⟨⟨x, rfl⟩, .inl rfl⟩

theorem KeepsInData.mono {P Q : Ep → Prop} {s t : State} (h : KeepsInData P s t) (hPQ : ∀ q, P q → Q q) :
    KeepsInData Q s t :=
  ⟨h.usb, h.u2s.imp_right fun ⟨q, hq, hrest⟩ => ⟨q, hPQ q hq, hrest⟩⟩

theorem KeepsInData.inToken (ep : Ep) (s : State) : KeepsInData (· = ep) s (inToken ep s) := by
  rcases inToken_cases ep s with ⟨-, heq⟩ | ⟨hen, hstall, heq⟩ | ⟨-, -, -, heq⟩ | heq <;> rw [heq]
  · exact .refl _ s
  · exact ⟨⟨_, rfl⟩, .inr ⟨ep, rfl, hen, hstall, rfl⟩⟩
  · exact ⟨⟨_, rfl⟩, .inl rfl⟩
  · exact ⟨⟨_, rfl⟩, .inl rfl⟩

/-- A token keeps what its action keeps, run on the state with no transaction open. -/
theorem KeepsInData.onToken {P : Ep → Prop} {addr : DevAddr} {f : State → State} {s : State}
    (h : addr = s.usb.address → KeepsInData P (s.setXact .idle) (f (s.setXact .idle))) :
    KeepsInData P s (onToken addr f s) := by
  rcases onToken_cases addr f s with ⟨haccepted, heq⟩ | ⟨-, heq⟩ <;> rw [heq]
  · obtain ⟨-, haddr⟩ := (tokenAccepted_iff _ _).1 haccepted
    obtain ⟨husb, hu2s⟩ := h haddr
    exact ⟨husb, hu2s⟩
  · exact .setXact P s .idle

/-- While an IN packet waits for its handshake, no packet but the ACK commits it. -/
theorem exec_pid_keepsInData {s t : State} {ep : Ep} {n : Nat} {i : Instr} (hxact : s.usb.xact = .inHandshake ep n)
    (hpid : isPid i = true) (hack : i ≠ .pidAck) (h : exec i s = .next t) :
    KeepsInData (fun q => i = .pidIn s.usb.address q) s t := by
  cases i
  case pidIn addr q =>
    cases h
    refine .onToken fun haddr => (KeepsInData.inToken q _).mono ?_
    rintro _ rfl
    rw [haddr]
  case pidOut addr q =>
    cases h
    refine .onToken fun _ => ?_
    unfold outToken
    split
    exacts [.setXact _ _ _, .refl _ _]
  case pidSetup addr q =>
    cases h
    refine .onToken fun _ => ?_
    unfold setupToken
    split
    exacts [.setXact _ _ _, .refl _ _]
  case pidData0 p => simp only [exec, execPidData0, onData, hxact] at h; cases h; exact .setXact _ s .idle
  case pidData1 p => simp only [exec, execPidData1, onData, hxact] at h; cases h; exact .setXact _ s .idle
  case pidAck => exact absurd rfl hack
  all_goals cases hpid <;> cases h <;> exact .setXact _ s .idle

/-- The actions of R226: the timeout, and every packet but the well-formed ACK. -/
theorem act_keepsInData {s t : State} {ep : Ep} {n : Nat} {a : Action} (hxact : s.usb.xact = .inHandshake ep n)
    (ha : a = .timeout ∨
      ∃ (bytes : List Byte) (err : Bool), a = .input (.packet bytes err) ∧ ¬(bytes = [0xD2] ∧ err = false))
    (h : act a s = .next t) :
    KeepsInData (fun q => a = .input (encode s.cfg.csrBase (.pidIn s.usb.address q))) s t := by
  rcases ha with rfl | ⟨bytes, err, rfl, hack⟩
  · cases h
    exact .setXact _ s .idle
  · rcases packet_cases h with rfl | ⟨rfl, i, hdecode, hpid, hexec, -⟩
    · exact .refl _ _
    · have hne : i ≠ .pidAck := by
        rintro rfl
        exact hack (packet_of_decode_pidAck hdecode)
      refine (exec_pid_keepsInData hxact hpid hne hexec).mono ?_
      rintro q rfl
      obtain ⟨rfl, -⟩ := packet_of_decode_pidIn hdecode
      rfl

/-- Settles O23: the closing action changes at most the open transaction, and the answer to the next token does not depend
on it. -/
theorem unacknowledgedInDataIsResent : Obligations.UnacknowledgedInDataIsResent := by
  intro s t u ep a htoken hxact ha hclose
  have hsends := sendsInData_of_exec_pidIn htoken hxact
  rw [exec_pidIn_of_sendsInData hsends] at htoken
  cases htoken
  obtain ⟨⟨x, husb⟩, hmsg⟩ := act_keepsInData hxact ha hclose
  replace husb : u.usb = { s.usb with xact := x } := husb
  have hagain : u.usb.SendsInData ep := by
    rw [husb]
    exact ⟨hsends.answers, hsends.enabled, hsends.not_stalled, hsends.ready⟩
  have hexec := exec_pidIn_of_sendsInData hagain
  have hpacket : u.usb.inPacket ep = s.usb.inPacket ep := by rw [husb]; rfl
  rw [hpacket, show u.usb.address = s.usb.address by rw [husb]] at hexec
  exact ⟨s.usb.inPacket ep, _, rfl, by rw [husb], by rw [husb], by rw [husb], hmsg, hexec, rfl⟩

/-! ### The reads of window 2 (R243, R245, R246) -/

section

variable {w : Nat} (lo : Nat) (x : BitVec w)

theorem place_getLsbD {k : Nat} (hk : k < 32) : (place lo x).getLsbD k = (decide (lo ≤ k) && x.getLsbD (k - lo)) := by
  simp [place, hk, ← decide_not]

/-- A field read where it was placed. -/
theorem extractLsb'_place_same (h : lo + w ≤ 32) : (place lo x).extractLsb' lo w = x := by
  refine BitVec.eq_of_getLsbD_eq fun k hk => ?_
  rw [BitVec.getLsbD_extractLsb', decide_eq_true hk, place_getLsbD lo x (by omega)]
  simp

/-- A field read below or above the place of another. -/
theorem extractLsb'_place_disjoint {pos n : Nat} (hn : pos + n ≤ 32) (h : pos + n ≤ lo ∨ lo + w ≤ pos) :
    (place lo x).extractLsb' pos n = 0 := by
  refine BitVec.eq_of_getLsbD_eq fun k hk => ?_
  rw [BitVec.getLsbD_extractLsb', place_getLsbD lo x (by omega)]
  rcases h with h | h
  · simp [show ¬lo ≤ pos + k by omega]
  · simp [BitVec.getLsbD_of_ge x (pos + k - lo) (by omega)]

end

/-- Settles O4: the fields of `IN.STATUS` have places of their own. -/
theorem inRegisterReads : Obligations.InRegisterReads := by
  intro s
  refine ⟨_, _, _, rfl, place_zero_toNat (by decide) _, rfl, place_zero_toNat (by decide) _, rfl, ?_⟩
  simp [-BitVec.getLsbD_eq_getElem, placeBit, BitVec.extractLsb'_or, extractLsb'_place_same, extractLsb'_place_disjoint,
    place_getLsbD]

/-! ### The writes of window 2 (R236, R238, R240, R242, R244, R248) -/

theorem byteField_toNat (v : Word) : (byteField v).toNat = v.toNat % 256 := by
  simp [byteField, BitVec.extractLsb'_toNat]

theorem epField_toNat (v : Word) : (epField v).toNat = v.toNat % 16 := by
  simp [epField, BitVec.extractLsb'_toNat]

theorem maskField_toNat (v : Word) : (maskField v).toNat = v.toNat % 65536 := by
  simp [maskField, BitVec.extractLsb'_toNat]

theorem not_bitField_of_even {v : Word} (h : v.toNat % 2 = 0) : ¬bitField v = true := by
  rw [bitField_iff]
  omega

/-- Settles O10: each message carries the field of the written value, and bit 0 is the strobe. -/
theorem inWritesSendMessages : Obligations.InWritesSendMessages := by
  intro s v
  refine ⟨byteField v, epField v, maskField v, byteField_toNat v, epField_toNat v, maskField_toNat v, rfl, rfl, rfl,
    fun h => ?_, fun h => ?_, fun h => ?_, fun h => ?_⟩
  · exact congrArg _ (if_pos ((bitField_iff v).2 h))
  · exact congrArg _ (if_neg (not_bitField_of_even h))
  · exact congrArg _ (if_pos ((bitField_iff v).2 h))
  · exact congrArg _ (if_neg (not_bitField_of_even h))

/-- Some bit of a mask is cleared by the new mask. -/
theorem and_not_ne_zero_iff (old new : Mask) :
    old &&& ~~~new ≠ 0 ↔ ∃ n < 16, old.getLsbD n = true ∧ new.getLsbD n = false := by
  constructor
  · contrapose!
    intro hnone
    refine BitVec.eq_of_getLsbD_eq fun n hn => ?_
    simpa [hn] using hnone n hn
  · rintro ⟨n, hn, hold, hnew⟩ hzero
    have hbit : (old &&& ~~~new).getLsbD n = true := by
      rw [BitVec.getLsbD_and, BitVec.getLsbD_not, hold, hnew, decide_eq_true hn]
      rfl
    rw [hzero] at hbit
    simp at hbit

/-- Settles O11: the FIFO reset is sent exactly if the new mask clears a bit. -/
theorem inStallWrite : Obligations.InStallWrite := by
  intro s v
  refine ⟨maskField v, maskField_toNat v, fun h => ?_, fun h => ?_⟩
  · have hcleared := (and_not_ne_zero_iff s.sys.inStallReg (maskField v)).2 h
    simp only [exec, execWInStall, if_pos hcleared, State.sendS2U, State.modSys, List.append_assoc,
      List.singleton_append]
  · have hkept : ¬s.sys.inStallReg &&& ~~~maskField v ≠ 0 := by
      rw [and_not_ne_zero_iff]
      rintro ⟨n, hn, hold, hnew⟩
      exact absurd (h n hn hold) (by simp [hnew])
    simp only [exec, execWInStall, if_neg hkept, State.sendS2U, State.modSys]

end Sys2Proof.Machine
end

section
/-! Proofs of the OUT-endpoint family (44_out_endpoint.md): the data packet of an OUT transaction, and the accesses of
window 3. -/

namespace Sys2Proof.Machine

open Sys2Proof

/-! ### The data packet of an OUT transaction (R251 to R256) -/

section

variable {s : State} {ep : Ep} {t : Bool} {payload : List Byte}

theorem outPacket_of_too_long (hlen : s.cfg.outDepth < payload.length) :
    outPacket ep t payload s = s.setXact .idle := if_pos hlen

variable (hlen : payload.length ≤ s.cfg.outDepth)

include hlen

theorem outPacket_of_stalled (hstall : testEp s.usb.outStall ep = true) :
    outPacket ep t payload s = ((s.setXact .idle).tx (handshakeBytes .stall)).sendU2S (.outStalled ep) := by
  simp [outPacket, Nat.not_lt.2 hlen, hstall]

variable (hstall : testEp s.usb.outStall ep = false)

include hstall

theorem outPacket_of_avail (havail : s.usb.outAvail = true) :
    outPacket ep t payload s = (s.setXact .idle).tx (handshakeBytes .nak) := by
  simp [outPacket, Nat.not_lt.2 hlen, hstall, havail]

variable (havail : s.usb.outAvail = false)

include havail

theorem outPacket_of_toggle_ne (htoggle : testEp s.usb.toggleOut ep ≠ t) :
    outPacket ep t payload s = (s.setXact .idle).tx (handshakeBytes .ack) := by
  simp [outPacket, Nat.not_lt.2 hlen, hstall, havail, htoggle.symm]

theorem outPacket_of_toggle_eq (htoggle : testEp s.usb.toggleOut ep = t) :
    outPacket ep t payload s =
      { s with
        usb := { s.usb with outAvail := true, toggleOut := flipEp s.usb.toggleOut ep, xact := .idle }
        u2s := s.u2s ++ [.outData ep payload]
        txLog := s.txLog ++ [handshakeBytes .ack] } := by
  simp [outPacket, Nat.not_lt.2 hlen, hstall, havail, htoggle, State.modUsb, State.sendU2S, State.tx, State.setXact]

end

/-- R251: both data PIDs run the same rule in `OutData(ep)`, each with its own toggle value. -/
theorem exec_data_of_outData {s : State} {ep : Ep} {payload : List Byte} {p : Instr × Bool}
    (hxact : s.usb.xact = .outData ep) (hp : p ∈ [(Instr.pidData0 payload, false), (.pidData1 payload, true)]) :
    exec p.1 s = .next (outPacket ep p.2 payload s) := by
  fin_cases hp
  · simp only [exec, execPidData0, onData, hxact]
  · simp only [exec, execPidData1, onData, hxact]

/-- Settles O21, one clause per test of R251. -/
theorem outDataPacket : Obligations.OutDataPacket := by
  intro s ep payload hxact p hp
  rw [exec_data_of_outData hxact hp]
  refine ⟨fun hlen => ?_, fun hlen hstall => ?_, fun hlen hstall havail => ?_, fun hlen hstall havail htoggle => ?_,
    fun hlen hstall havail htoggle => ?_⟩
  · exact congrArg _ (outPacket_of_too_long hlen)
  · exact congrArg _ (outPacket_of_stalled hlen hstall)
  · exact congrArg _ (outPacket_of_avail hlen hstall havail)
  · exact congrArg _ (outPacket_of_toggle_ne hlen hstall havail htoggle)
  · exact ⟨_, flipEp_bit _ ep, congrArg _ (outPacket_of_toggle_eq hlen hstall havail htoggle)⟩

/-! ### The writes of window 3 (R262, R267, R269, R271, R275) -/

section

variable {s : State}

theorem outClear_of_avail (h : s.sys.outAvailSys = true) :
    outClear s =
      { s with sys := { s.sys with outFifo := [], outAvailSys := false }, s2u := s.s2u ++ [.outAck] } := if_pos h

theorem outClear_of_not_avail (h : s.sys.outAvailSys = false) : outClear s = s := if_neg (ne_true_of_eq_false h)

/-- R269: the FIFO is cleared exactly if the new mask clears a stall bit, before the mask is sent. -/
theorem exec_wOutStall_of_cleared {v : Word}
    (h : ∃ n < 16, s.sys.outStallReg.getLsbD n = true ∧ (maskField v).getLsbD n = false) :
    exec (.wOutStall v) s =
      .next ((outClear (s.modSys fun y => { y with outStallReg := maskField v })).sendS2U
        (.outStall (maskField v))) := by
  simp only [exec, execWOutStall, if_pos ((and_not_ne_zero_iff _ _).2 h)]

theorem exec_wOutStall_of_kept {v : Word}
    (h : ∀ n < 16, s.sys.outStallReg.getLsbD n = true → (maskField v).getLsbD n = true) :
    exec (.wOutStall v) s =
      .next ((s.modSys fun y => { y with outStallReg := maskField v }).sendS2U (.outStall (maskField v))) := by
  have hkept := (and_not_ne_zero_iff s.sys.outStallReg (maskField v)).not.2 fun ⟨n, hn, hold, hnew⟩ =>
    Bool.false_ne_true (hnew.symm.trans (h n hn hold))
  simp only [exec, execWOutStall, if_neg hkept]

/-- With no data available the clear does nothing, so it does not matter whether a stall bit is cleared. -/
theorem exec_wOutStall_of_not_avail {v : Word} (h : s.sys.outAvailSys = false) :
    exec (.wOutStall v) s =
      .next ((s.modSys fun y => { y with outStallReg := maskField v }).sendS2U (.outStall (maskField v))) := by
  have hclear : outClear (s.modSys fun y => { y with outStallReg := maskField v }) =
      s.modSys fun y => { y with outStallReg := maskField v } := outClear_of_not_avail h
  simp only [exec, execWOutStall, hclear, ite_self]

end

/-- Settles O13: the new mask is in place when the FIFO is cleared, and `M_OUT_ACK` goes ahead of `M_OUT_STALL`. -/
theorem outStallAndEnableWrites : Obligations.OutStallAndEnableWrites := by
  intro s v
  refine ⟨maskField v, maskField_toNat v, fun hcleared havail => ?_, fun h => ?_, rfl⟩
  · have hclear := outClear_of_avail (s := s.modSys fun y => { y with outStallReg := maskField v }) havail
    rw [exec_wOutStall_of_cleared hcleared, hclear]
    simp only [State.sendS2U, State.modSys, List.append_assoc, List.singleton_append]
  · rcases h with hkept | havail
    · exact exec_wOutStall_of_kept hkept
    · exact exec_wOutStall_of_not_avail havail

/-- R275: `OUT.CTRL` does the same as `OUT.ACK`. -/
theorem exec_wOutAck_or_wOutCtrl {v : Word} {i : Instr} (hi : i ∈ [Instr.wOutAck v, .wOutCtrl v]) (s : State) :
    exec i s = .next (if bitField v = true then outClear s else s) := by
  fin_cases hi <;> rfl

/-- Settles O12: bit 0 of the written value is the strobe of `out_clear`. -/
theorem outAckAndCtrlClear : Obligations.OutAckAndCtrlClear := by
  intro s v i hi
  rw [exec_wOutAck_or_wOutCtrl hi]
  refine ⟨fun hbit havail => ?_, fun hbit havail => ?_, fun hbit => ?_⟩
  · rw [if_pos ((bitField_iff v).2 hbit), outClear_of_avail havail]
  · rw [if_pos ((bitField_iff v).2 hbit), outClear_of_not_avail havail]
  · rw [if_neg (not_bitField_of_even hbit)]

/-! ### The pop of `OUT.DATA` (R263) -/

theorem exec_rOutData_of_empty {s : State} (h : s.sys.outFifo = []) : exec .rOutData s = .next (s.returnRead 0) := by
  simp only [exec, execROutData, h]

theorem exec_rOutData_of_cons {s : State} {b : Byte} {rest : List Byte} (h : s.sys.outFifo = b :: rest) :
    exec .rOutData s = .next ((s.modSys fun y => { y with outFifo := rest }).returnRead (place 0 b)) := by
  simp only [exec, execROutData, h]

/-- Settles O7: the byte popped is zero-extended. -/
theorem outDataReadPops : Obligations.OutDataReadPops := by
  intro s
  exact ⟨exec_rOutData_of_empty,
    fun b rest h => ⟨place 0 b, place_zero_toNat (by decide) b, exec_rOutData_of_cons h⟩⟩

end Sys2Proof.Machine
end

section
/-! Proofs of the event-aggregator family (45_event_aggregator.md): the event registers, and what sets and clears a pending
bit. -/

namespace Sys2Proof.Machine

open Sys2Proof

/-! ### The event registers (R282 to R285) -/

/-- Settles O6: every line is read zero-extended. -/
theorem eventRegisterReads : Obligations.EventRegisterReads := by
  intro s p hp
  fin_cases hp <;> exact ⟨_, rfl, place_zero_toNat (by decide) _⟩

/-- R283 bit by bit, for a line of any width. -/
theorem and_not_extractLsb'_getLsbD {w : Nat} (x : BitVec w) (v : Word) (k : Nat) :
    (x &&& ~~~(v.extractLsb' 0 w)).getLsbD k = (x.getLsbD k && !v.getLsbD k) := by
  by_cases hk : k < w
  · rw [BitVec.getLsbD_and, BitVec.getLsbD_not, BitVec.getLsbD_extractLsb', decide_eq_true hk, Bool.true_and,
      Bool.true_and, Nat.zero_add]
  · rw [BitVec.getLsbD_of_ge _ k (Nat.not_lt.1 hk), BitVec.getLsbD_of_ge x k (Nat.not_lt.1 hk), Bool.false_and]

/-- Settles O14: each write runs `clear` or `assign` on its line alone. -/
theorem eventRegisterWrites : Obligations.EventRegisterWrites := by
  intro s v
  have low (n : Nat) : (v.extractLsb' 0 n).toNat = v.toNat % 2 ^ n := by simp [BitVec.extractLsb'_toNat]
  exact ⟨_, _, _, _, _, _, fun k _ => and_not_extractLsb'_getLsbD _ v k, and_not_extractLsb'_getLsbD _ v 0,
    fun k _ => and_not_extractLsb'_getLsbD _ v k, fun k _ => and_not_extractLsb'_getLsbD _ v k, low 2, low 1,
    rfl, rfl, rfl, rfl, rfl, rfl, rfl, rfl⟩

/-! ### What a delivery makes of the pending bits (R184, R281) -/

/-- The pending bit of a cause (10_state.md R60). -/
def LineBits.bit (r : LineBits) : Cause → Bool
  | .dcReset => r.dc.getLsbD 0
  | .dcSpeed => r.dc.getLsbD 1
  | .setup => r.setup.getLsbD 0
  | .inDone => r.inEp.getLsbD 0
  | .inStalled => r.inEp.getLsbD 1
  | .outData => r.outEp.getLsbD 0
  | .outStalled => r.outEp.getLsbD 1

/-- The causes of the DC line, whose bits an `E_RESET` leaves alone (R184). -/
def Cause.isDc : Cause → Bool
  | .dcReset | .dcSpeed => true
  | .setup | .inDone | .inStalled | .outData | .outStalled => false

/-- The cause whose bit the delivery of a message sets, if there is one (R281). -/
def U2SMsg.cause : U2SMsg → Option Cause
  | .reset .bus => some .dcReset
  | .speed => some .dcSpeed
  | .setup _ _ _ => some .setup
  | .inDone _ => some .inDone
  | .inStalled _ => some .inStalled
  | .outData _ _ => some .outData
  | .outStalled _ => some .outStalled
  | .devState _ _ _ | .line _ | .reset .soft | .inStatus _ _ _ => none

theorem LineBits.raise_bit (r : LineBits) (c d : Cause) : (r.raise c).bit d = (r.bit d || decide (c = d)) := by
  cases c <;> cases d <;> simp [LineBits.raise, LineBits.bit]

theorem LineBits.clearEndpointLines_bit (r : LineBits) (c : Cause) :
    r.clearEndpointLines.bit c = (r.bit c && c.isDc) := by
  cases c <;> simp [LineBits.clearEndpointLines, LineBits.bit, Cause.isDc]

/-- A delivery clears the endpoint lines at an `E_RESET`, then raises the cause of its message. -/
theorem take_pending (m : U2SMsg) (y : Sys) :
    (y.take m).pending =
      m.cause.toList.foldl LineBits.raise (if m.isReset = true then y.pending.clearEndpointLines else y.pending) := by
  cases m with
  | reset kind => cases kind <;> rfl
  | _ => rfl

theorem take_pending_bit (m : U2SMsg) (y : Sys) (c : Cause) :
    (y.take m).pending.bit c = (y.pending.bit c && (c.isDc || !m.isReset) || decide (m.cause = some c)) := by
  have hkept : (if m.isReset = true then y.pending.clearEndpointLines else y.pending).bit c =
      (y.pending.bit c && (c.isDc || !m.isReset)) := by
    cases m.isReset with
    | true => simp [LineBits.clearEndpointLines_bit]
    | false => simp
  rw [take_pending]
  cases m.cause with
  | none => simp [hkept]
  | some d => simp [hkept, LineBits.raise_bit]

/-- R281 in the words of the spec: the messages whose delivery sets the bit of a cause. -/
def Cause.RaisedBy (m : U2SMsg) : Cause → Prop
  | .dcReset => m = .reset .bus
  | .dcSpeed => m = .speed
  | .setup => ∃ ep d sc, m = .setup ep d sc
  | .inDone => ∃ ep, m = .inDone ep
  | .inStalled => ∃ ep, m = .inStalled ep
  | .outData => ∃ ep d, m = .outData ep d
  | .outStalled => ∃ ep, m = .outStalled ep

theorem cause_eq_some_iff (m : U2SMsg) (c : Cause) : m.cause = some c ↔ c.RaisedBy m := by
  unfold U2SMsg.cause
  cases c <;> (simp only [Cause.RaisedBy]; split <;> simp)

/-- The bits of the DC line are kept. -/
theorem take_pending_bit_of_isDc {c : Cause} (hc : c.isDc = true) (m : U2SMsg) (y : Sys) {p : Prop} [Decidable p]
    (hp : c.RaisedBy m ↔ p) : (y.take m).pending.bit c = (y.pending.bit c || decide p) := by
  rw [take_pending_bit, hc, Bool.true_or, Bool.and_true, decide_eq_decide.2 ((cause_eq_some_iff m c).trans hp)]

/-- The bits of the endpoint lines are kept by every message but `E_RESET`. -/
theorem take_pending_bit_iff_of_not_isDc {c : Cause} (hc : c.isDc = false) (m : U2SMsg) (y : Sys) :
    (y.take m).pending.bit c = true ↔ (y.pending.bit c = true ∧ m.isReset = false) ∨ c.RaisedBy m := by
  rw [take_pending_bit, hc, ← cause_eq_some_iff]
  simp

/-! ### What else changes a pending bit (R281, R283) -/

theorem lineChange_sys (ls : LineState) (s : State) : (lineChange ls s).sys = s.sys := by
  unfold lineChange
  split <;> rfl

/-- Apart from steps of `U2S` and power-on, only firmware changes the system domain. -/
theorem act_sys {a : Action} {s t : State} (h : act a s = .next t) (hfw : isFw a = false) (hu2s : a ≠ .u2s)
    (hpower : a ≠ .powerOn) : t.sys = s.sys := by
  rcases act_cases h with ⟨hfw', -⟩ | ⟨_, _, -, rfl | packet⟩ | ⟨-, rfl⟩ | ⟨-, rfl⟩ | ⟨ls, -, rfl⟩ |
    ⟨-, ⟨-, rfl⟩ | ⟨m, rest, -, rfl⟩⟩ | ⟨hu2s', -⟩ | ⟨hpower', -⟩
  · rw [hfw] at hfw'; cases hfw'
  · rfl
  · obtain ⟨hsys, -⟩ := packet.frame
    exact hsys
  · obtain ⟨hsys, -⟩ := busReset_frame s
    exact hsys
  · exact timeout_sys s
  · exact lineChange_sys ls s
  · rfl
  · obtain ⟨hsys, -⟩ := applyS2U_frame m { s with s2u := rest }
    exact hsys
  · exact absurd hu2s' hu2s
  · exact absurd hpower' hpower

theorem exec_read_pending {r : Reg} {s t : State} (h : exec r.readInstr s = .next t) :
    t.sys.pending = s.sys.pending := by
  obtain ⟨v, rfl⟩ := exec_read h
  split <;> rfl

theorem outClear_pending (s : State) : (outClear s).sys.pending = s.sys.pending := by
  rcases outClear_cases s with ⟨-, h⟩ | ⟨-, h⟩ <;> rw [h]

/-- The write of `v` to the `EV_PENDING` register of each window. -/
def evPendingWrites (v : Word) : List Instr := [.wDcEvPending v, .wSetupEvPending v, .wInEvPending v, .wOutEvPending v]

/-- Of the registers, only `EV_PENDING` gives a write an effect on the pending bits. -/
theorem exec_write_pending {r : Reg} {v : Word} {s t : State} (h : exec (r.writeInstr v) s = .next t) :
    t.sys.pending = s.sys.pending ∨
    (r.writeInstr v ∈ evPendingWrites v ∧ t.sys.pending = s.sys.pending.clear v r.window) := by
  cases r
  case dcEvPending | setupEvPending | inEvPending | outEvPending =>
    cases h
    exact .inr ⟨by simp [Reg.writeInstr, evPendingWrites], rfl⟩
  all_goals refine .inl ?_
  case outAck | outCtrl => cases h; split; exacts [outClear_pending s, rfl]
  case outStall =>
    simp only [Reg.writeInstr, exec, execWOutStall] at h
    cases h
    rw [State.sendS2U_sys]
    split
    · exact outClear_pending _
    · rfl
  case inStall =>
    simp only [Reg.writeInstr, exec, execWInStall] at h
    cases h
    split <;> rfl
  case dcCtrl | inReady | inCtrl | setupAck => cases h; split <;> rfl
  all_goals cases h; rfl

/-- The only access that changes the pending bits is a write decoded to an `EV_PENDING` register. -/
theorem access_pending {a : Action} {s t : State} (ha : isFw a = true) (h : act a s = .next t)
    (hne : t.sys.pending ≠ s.sys.pending) :
    ∃ (r : Reg) (v : Word), a = .input (.csrWrite (r.busAddr s.cfg.csrBase) v) ∧
      decode s.cfg.csrBase (.csrWrite (r.busAddr s.cfg.csrBase) v) = .ok (r.writeInstr v) ∧
      r.writeInstr v ∈ evPendingWrites v ∧ t.sys.pending = s.sys.pending.clear v r.window := by
  rcases access_cases ha h with rfl | rfl | ⟨r, -, -, hexec⟩ | ⟨r, v, rfl, hdecode, hexec⟩
  · exact absurd rfl hne
  · exact absurd rfl hne
  · exact absurd (exec_read_pending hexec) hne
  · obtain ⟨hmem, hclear⟩ := (exec_write_pending hexec).resolve_left hne
    exact ⟨r, v, rfl, hdecode, hmem, hclear⟩

/-- Every bit of a line after the clear was set before it. -/
theorem and_not_getLsbD_imp {w : Nat} (x : BitVec w) (v : Word) (k : Nat)
    (h : (x &&& ~~~(v.extractLsb' 0 w)).getLsbD k = true) : x.getLsbD k = true := by
  rw [and_not_extractLsb'_getLsbD, Bool.and_eq_true] at h
  exact h.1

theorem LineBits.clear_sets_none (r : LineBits) (v : Word) (l : Line) :
    (∀ k < 2, (r.clear v l).dc.getLsbD k = true → r.dc.getLsbD k = true) ∧
    ((r.clear v l).setup.getLsbD 0 = true → r.setup.getLsbD 0 = true) ∧
    (∀ k < 2, (r.clear v l).inEp.getLsbD k = true → r.inEp.getLsbD k = true) ∧
    (∀ k < 2, (r.clear v l).outEp.getLsbD k = true → r.outEp.getLsbD k = true) := by
  cases l with
  | dc => exact ⟨fun k _ => and_not_getLsbD_imp r.dc v k, id, fun _ _ => id, fun _ _ => id⟩
  | setup => exact ⟨fun _ _ => id, and_not_getLsbD_imp r.setup v 0, fun _ _ => id, fun _ _ => id⟩
  | inEp => exact ⟨fun _ _ => id, id, fun k _ => and_not_getLsbD_imp r.inEp v k, fun _ _ => id⟩
  | outEp => exact ⟨fun _ _ => id, id, fun _ _ => id, fun k _ => and_not_getLsbD_imp r.outEp v k⟩

/-- Settles O55: a delivery raises the cause of its message, and any other change is a write that clears. -/
theorem pendingBitsSetByDeliveries : Obligations.PendingBitsSetByDeliveries := by
  constructor
  · intro s t m rest hhead h
    rw [act_u2s_eq hhead] at h
    cases h
    have endpointBit {c : Cause} (hc : c.isDc = false) := take_pending_bit_iff_of_not_isDc hc m s.sys
    exact ⟨take_pending_bit_of_isDc (c := .dcReset) rfl m s.sys Iff.rfl,
      take_pending_bit_of_isDc (c := .dcSpeed) rfl m s.sys Iff.rfl, endpointBit (c := .setup) rfl,
      endpointBit (c := .inDone) rfl, endpointBit (c := .inStalled) rfl, endpointBit (c := .outData) rfl,
      endpointBit (c := .outStalled) rfl⟩
  · intro a s t h hu2s hpower hne
    cases hfw : isFw a with
    | false => exact absurd (congrArg Sys.pending (act_sys h hfw hu2s hpower)) hne
    | true =>
      obtain ⟨r, v, rfl, hdecode, hmem, hclear⟩ := access_pending hfw h hne
      refine ⟨_, v, _, rfl, hdecode, hmem, ?_⟩
      rw [hclear]
      exact s.sys.pending.clear_sets_none v r.window

end Sys2Proof.Machine
end

section
/-! Proofs of the exception family (60_exceptions.md): every step has a next state, but for a misaligned access. -/

namespace Sys2Proof.Machine

open Sys2Proof

/-! ### No step raises an exception, a fault or a bus error (R295) -/

/-- Every instruction has a meaning in every state. Two of them choose it by the state: the handshake that may close an IN
transfer (R160) and the read that pops the OUT FIFO (R263). -/
theorem exec_eq_next (i : Instr) (s : State) : ∃ t, exec i s = .next t := by
  cases i
  case pidAck => simp only [exec, execPidAck]; split <;> exact ⟨_, rfl⟩
  case rOutData => simp only [exec, execROutData]; split <;> exact ⟨_, rfl⟩
  all_goals exact ⟨_, rfl⟩

theorem toNat_mod_four_ne_zero_of_decodeAccess {base a : Word} {sel : Reg → Instr}
    (h : decodeAccess base a sel = .error .misaligned) : a.toNat % 4 ≠ 0 := by
  intro haligned
  simp only [decodeAccess, (alignedAddr_iff a).2 haligned] at h
  cases htarget : busTarget base a <;> simp [htarget] at h

/-- Only an access at a misaligned address is rejected as one: no packet is (R88). -/
theorem misaligned_access_of_decode {base : Word} {x : Input} (h : decode base x = .error .misaligned) :
    ∃ a v : Word, a.toNat % 4 ≠ 0 ∧ (x = .csrRead a ∨ x = .csrWrite a v) := by
  cases x with
  | packet bytes err => simp only [decode] at h; split at h <;> cases h
  | csrRead a => exact ⟨a, 0, toNat_mod_four_ne_zero_of_decodeAccess h, .inl rfl⟩
  | csrWrite a v => exact ⟨a, v, toNat_mod_four_ne_zero_of_decodeAccess h, .inr rfl⟩

/-- An instruction runs, and an input that is none completes too, unless it is rejected as misaligned. -/
theorem runInput_eq_next_or_misaligned (x : Input) (s : State) :
    (∃ t, runInput x s = .next t) ∨
    (decode s.cfg.csrBase x = .error .misaligned ∧ runInput x s = .refused .misaligned) := by
  unfold runInput
  cases decode s.cfg.csrBase x with
  | ok i => exact .inl (exec_eq_next i s)
  | error r =>
    rcases rejectInput_cases x r s with h | h | ⟨rfl, h⟩
    · exact .inl ⟨_, h⟩
    · exact .inl ⟨_, h⟩
    · exact .inr ⟨rfl, h⟩

/-- Settles O40: of the actions only an input can be refused, and of the inputs only a misaligned access is. -/
theorem everyStepCompletes : Obligations.EveryStepCompletes := by
  intro s
  simp only [step]
  cases s.fetch.1 with
  | input x =>
    refine (runInput_eq_next_or_misaligned x s.fetch.2).imp_right ?_
    rintro ⟨hdecode, hrefused⟩
    obtain ⟨a, v, ha, hx⟩ := misaligned_access_of_decode hdecode
    exact ⟨hrefused, a, v, ha, hx.imp (congrArg Action.input) (congrArg Action.input)⟩
  | busReset | timeout | lineState | s2u | u2s | powerOn => exact .inl ⟨_, rfl⟩

end Sys2Proof.Machine
end

section
/-! Proofs about the decoders (30_encoding.md): decoding and encoding are inverse to each other, and a step runs what its
input decodes to. -/

namespace Sys2Proof

open Machine

/-! ### The bytes of a packet class (R113 to R116) -/

theorem tokenField_tokenTail (w : BitVec 11) : tokenField (tokenTail w) = .ok w := by
  have hjoin := append_extractLsb' (m := 8) (n := 8) (crc5 w ++ w)
  simp only [tokenField, tokenTail, hjoin, extractLsb'_append_low, extractLsb'_append_high, if_true]

/-- The test of R145 on a payload with two bytes after it. -/
theorem dataPayload_append (payload : List Byte) (lo hi : Byte) :
    dataPayload (payload ++ [lo, hi]) = if hi ++ lo = crc16 payload then .ok payload else .error .dataCrc := by
  simp [dataPayload]

theorem dataPayload_append_crc16 (payload : List Byte) :
    dataPayload (payload ++ [(crc16 payload).extractLsb' 0 8, (crc16 payload).extractLsb' 8 8]) = .ok payload := by
  rw [dataPayload_append, if_pos (append_extractLsb' (m := 8) (n := 8) (crc16 payload))]

/-- A list of two elements or more ends in two elements. -/
theorem exists_eq_append_pair {α : Type} {l : List α} (h : 2 ≤ l.length) : ∃ init x y, l = init ++ [x, y] := by
  obtain ⟨x, y, hlast⟩ := List.length_eq_two.1 (show (l.drop (l.length - 2)).length = 2 by rw [List.length_drop]; omega)
  exact ⟨l.take (l.length - 2), x, y, by rw [← hlast, List.take_append_drop]⟩

/-- The bytes that pass the test of a data packet are the payload and its CRC16, low byte first (R115, R119). -/
theorem eq_append_crc16_of_dataPayload {rest payload : List Byte} (h : dataPayload rest = .ok payload) :
    rest = payload ++ [(crc16 payload).extractLsb' 0 8, (crc16 payload).extractLsb' 8 8] := by
  by_cases hlen : rest.length < 2
  · simp [dataPayload, hlen] at h
  · obtain ⟨init, lo, hi, rfl⟩ := exists_eq_append_pair (Nat.not_lt.1 hlen)
    rw [dataPayload_append] at h
    split at h <;> cases h
    rename_i hcrc
    rw [← hcrc, extractLsb'_append_low, extractLsb'_append_high]

/-- The encoding of a class from its bytes: the encoder's, for every class that is not malformed. -/
def PacketClass.bytes : PacketClass → List Byte
  | .malformed _ => []
  | .token t addr ep => tokenBytes t addr ep
  | .sof frame => sofBytes frame
  | .data d payload => dataBytes d payload
  | .handshake h => handshakeBytes h
  | .special p rest => specialBytes p rest

/-- A packet whose first byte is a PID byte passes R141 and R142. -/
theorem classify_pidByte (p : Pid) (rest : List Byte) : classify (p.byte :: rest) false = classifyPid p rest := by
  have hcheck := pidByte_check p
  rw [pidByte_nibble] at hcheck
  simp only [classify, pidByte_nibble, ofNibble_nibble, if_neg Bool.false_ne_true, if_pos hcheck]

theorem classify_bytes {c : PacketClass} (h : ∀ why, c ≠ .malformed why) : classify c.bytes false = c := by
  cases c with
  | malformed why => exact absurd rfl (h why)
  | token t addr ep =>
    simp only [PacketClass.bytes, tokenBytes, classify_pidByte, classifyPid, tokenField_tokenTail]
    rw [extractLsb'_append_low, extractLsb'_append_high]
  | sof frame => simp only [PacketClass.bytes, sofBytes, classify_pidByte, classifyPid, tokenField_tokenTail]
  | data d payload => simp only [PacketClass.bytes, dataBytes, classify_pidByte, classifyPid, dataPayload_append_crc16]
  | handshake p => simp only [PacketClass.bytes, handshakeBytes, classify_pidByte, classifyPid]
  | special p rest => simp only [PacketClass.bytes, specialBytes, classify_pidByte, classifyPid]

theorem classifyPid_bytes {pid : Pid} {rest : List Byte} {c : PacketClass} (h : classifyPid pid rest = c)
    (hc : ∀ why, c ≠ .malformed why) : c.bytes = pid.byte :: rest := by
  subst h
  cases pid with
  | token t =>
    cases hfield : tokenField rest with
    | error e => exact absurd (by simp only [classifyPid, hfield]) (hc e)
    | ok w =>
      simp only [classifyPid, hfield, PacketClass.bytes, tokenBytes, append_extractLsb' (m := 4) (n := 7) w]
      rw [tokenTail_of_tokenField hfield]
  | sof =>
    cases hfield : tokenField rest with
    | error e => exact absurd (by simp only [classifyPid, hfield]) (hc e)
    | ok w =>
      simp only [classifyPid, hfield, PacketClass.bytes, sofBytes]
      rw [tokenTail_of_tokenField hfield]
  | data d =>
    cases hpayload : dataPayload rest with
    | error e => exact absurd (by simp only [classifyPid, hpayload]) (hc e)
    | ok payload =>
      simp only [classifyPid, hpayload, PacketClass.bytes, dataBytes]
      rw [← eq_append_crc16_of_dataPayload hpayload]
  | handshake p =>
    cases rest with
    | nil => rfl
    | cons b rest => exact absurd rfl (hc _)
  | special p => rfl

/-- A class that stands for an instruction is not malformed. -/
theorem PacketClass.ne_malformed {c : PacketClass} {i : Instr} (h : c.instr = .ok i) (why : Malformed) :
    c ≠ .malformed why := by
  rintro rfl
  cases h

theorem bytes_of_classify {bytes : List Byte} {err : Bool} {i : Instr} (h : (classify bytes err).instr = .ok i) :
    (classify bytes err).bytes = bytes ∧ err = false := by
  rcases classify_cases bytes err with ⟨why, hmal⟩ | ⟨pid, rest, rfl, herr, hpid⟩
  · exact absurd hmal (PacketClass.ne_malformed h why)
  · exact ⟨classifyPid_bytes hpid.symm (PacketClass.ne_malformed h), herr⟩

theorem encode_of_instr {c : PacketClass} {i : Instr} (base : Word) (h : c.instr = .ok i) :
    encode base i = .packet c.bytes false := by
  unfold PacketClass.instr at h
  split at h <;> cases h <;> rfl

theorem decode_bytes {c : PacketClass} {i : Instr} (base : Word) (h : c.instr = .ok i) :
    decode base (.packet c.bytes false) = .ok i := by
  simp only [decode, classify_bytes (PacketClass.ne_malformed h), h]

/-! ### Decoding and encoding are inverse -/

theorem encodable_of_instr {c : PacketClass} {i : Instr} (base : Word) (h : c.instr = .ok i) :
    i.encodable base = true := by
  rw [Instr.encodable, encode_of_instr base h]

theorem encodable_readInstr (base : Word) (r : Reg) :
    r.readInstr.encodable base = decide (base.toNat ≤ (r.busAddr base).toNat) := by
  rw [Instr.encodable, encode_readInstr]

theorem encodable_writeInstr (base : Word) (r : Reg) (v : Word) :
    (r.writeInstr v).encodable base = decide (base.toNat ≤ (r.busAddr base).toNat) := by
  rw [Instr.encodable, encode_writeInstr]

theorem decode_encode {c : Config} {i : Instr} (h : i.encodable c.csrBase = true) :
    decode c.csrBase (encode c.csrBase i) = .ok i := by
  cases i
  case pidOut addr ep => exact decode_bytes (c := .token .out addr ep) _ rfl
  case pidIn addr ep => exact decode_bytes (c := .token .inn addr ep) _ rfl
  case pidSof frame => exact decode_bytes (c := .sof frame) _ rfl
  case pidSetup addr ep => exact decode_bytes (c := .token .setup addr ep) _ rfl
  case pidData0 payload => exact decode_bytes (c := .data .data0 payload) _ rfl
  case pidData1 payload => exact decode_bytes (c := .data .data1 payload) _ rfl
  case pidData2 payload => exact decode_bytes (c := .data .data2 payload) _ rfl
  case pidMdata payload => exact decode_bytes (c := .data .mdata payload) _ rfl
  case pidAck => exact decode_bytes (c := .handshake .ack) _ rfl
  case pidNak => exact decode_bytes (c := .handshake .nak) _ rfl
  case pidStall => exact decode_bytes (c := .handshake .stall) _ rfl
  case pidNyet => exact decode_bytes (c := .handshake .nyet) _ rfl
  case pidPreErr rest => exact decode_bytes (c := .special .preErr rest) _ rfl
  case pidSplit rest => exact decode_bytes (c := .special .split rest) _ rfl
  case pidPing rest => exact decode_bytes (c := .special .ping rest) _ rfl
  case pidReserved rest => exact decode_bytes (c := .special .reserved rest) _ rfl
  all_goals simp only [Instr.encodable, encode, decide_eq_true_eq] at h
  case rDcEvPending | rDcEvEnable | rDcEnable | rDcAddress | rDcSpeed | rDcStatus | rDcCtrl | rDcConfigured |
    rSetupEvPending | rSetupEvEnable | rSetupData0 | rSetupData1 | rSetupData2 | rSetupData3 | rSetupData4 |
    rSetupData5 | rSetupData6 | rSetupData7 | rSetupStatus | rSetupAck | rInEvPending | rInEvEnable | rInData |
    rInEpno | rInReady | rInStall | rInEpEnable | rInStatus | rInCtrl | rOutEvPending | rOutEvEnable | rOutData |
    rOutEpno | rOutAck | rOutStall | rOutEpEnable | rOutStatus | rOutCtrl =>
    exact decodeAccess_busAddr Reg.readInstr h
  all_goals exact decodeAccess_busAddr (Reg.writeInstr _) h

/-- The last displacement is below 0x4000, so nothing wraps up to 0xFFFFC000. -/
theorem le_busAddr_of_le {base : Word} (h : base.toNat ≤ 0xFFFFC000) (r : Reg) :
    base.toNat ≤ (r.busAddr base).toNat := by
  have := busOff_lt r
  rw [le_busAddr_iff]
  omega

theorem encodable_of_le {base : Word} (h : base.toNat ≤ 0xFFFFC000) (i : Instr) : i.encodable base = true := by
  have hreg (r : Reg) := decide_eq_true (le_busAddr_of_le h r)
  cases i
  case pidOut | pidIn | pidSof | pidSetup | pidData0 | pidData1 | pidData2 | pidMdata | pidAck | pidNak | pidStall |
    pidNyet | pidPreErr | pidSplit | pidPing | pidReserved =>
    rfl
  all_goals exact hreg _

/-- Settles O41: a packet is classified as the class its bytes were made from, a register found at its address. -/
theorem decodeEncode : Obligations.DecodeEncode := fun _ i => ⟨decode_encode, fun h => encodable_of_le h i⟩

/-- Settles O42: a packet is the encoding of its class, and what the decoder finds at an address stands there. -/
theorem encodeDecode : Obligations.EncodeDecode := by
  intro c x i h
  cases x with
  | packet bytes err =>
    have hinstr := decode_packet_eq_ok h
    obtain ⟨hbytes, rfl⟩ := bytes_of_classify hinstr
    exact ⟨by rw [encode_of_instr c.csrBase hinstr, hbytes], encodable_of_instr c.csrBase hinstr⟩
  | csrRead a =>
    obtain ⟨r, rfl, hle, rfl⟩ := decodeAccess_ok h
    exact ⟨encode_readInstr c.csrBase r, by rw [encodable_readInstr, decide_eq_true hle]⟩
  | csrWrite a v =>
    obtain ⟨r, rfl, hle, rfl⟩ := decodeAccess_ok h
    exact ⟨encode_writeInstr c.csrBase r v, by rw [encodable_writeInstr, decide_eq_true hle]⟩

/-- Settles O43, by running the decoder. -/
theorem writtenOutWordsDecode : Obligations.WrittenOutWordsDecode := by
  unfold Obligations.WrittenOutWordsDecode
  decide +kernel

end Sys2Proof

namespace Sys2Proof.Machine

open Sys2Proof

/-! ### The step runs what its input decodes to -/

theorem act_input_of_decode {s : State} {x : Input} {i : Instr} (h : decode s.cfg.csrBase x = .ok i) :
    act (.input x) s = exec i s := by
  simp only [act, runInput, h]

theorem step_input_of_decode {s : State} {x : Input} {rest : List Action} {i : Instr}
    (hagenda : s.agenda = .input x :: rest) (h : decode s.cfg.csrBase x = .ok i) :
    step s = exec i { s with agenda := rest } :=
  (step_cons hagenda).trans (act_input_of_decode h)

/-- Settles O35. -/
theorem stepRunsDecodedInstruction : Obligations.StepRunsDecodedInstruction := by
  intro s
  refine ⟨fun _ _ => step_cons, fun hempty => ?_, fun _ _ => act_input_of_decode, fun _ _ _ => step_input_of_decode⟩
  simp only [step, State.fetch, hempty]

/-- The only address that is a register's, as a number, is the one it is encoded at. -/
theorem eq_busAddr_of_toNat {base a : Word} {r : Reg}
    (h : a.toNat = base.toNat + 0x1000 * r.window.number.toNat + r.offset.toNat) :
    a = r.busAddr base ∧ base.toNat ≤ a.toNat := by
  have hoff := busOff_toNat r
  have hfits : base.toNat + r.busOff.toNat < 2 ^ 32 := by have := a.isLt; omega
  exact ⟨BitVec.eq_of_toNat_eq (by rw [busAddr_toNat hfits]; omega), by omega⟩

/-- Settles O37: the access decodes to the register at its address. -/
theorem registerAtItsAddress : Obligations.RegisterAtItsAddress := by
  intro s rest r a v h
  obtain ⟨rfl, hle⟩ := eq_busAddr_of_toNat h
  exact ⟨fun hagenda => step_input_of_decode hagenda (decodeAccess_busAddr Reg.readInstr hle),
    fun hagenda => step_input_of_decode hagenda (decodeAccess_busAddr (Reg.writeInstr v) hle)⟩

end Sys2Proof.Machine
end

section
/-! Proofs about single rules: the register reads of window 3, packets that only end the open transaction, the commit of an
IN transfer, a change of the line state, the endpoint messages, and the state after power-on. -/

namespace Sys2Proof.Machine

open Sys2Proof

/-! ### The reads of window 3 (44_out_endpoint.md R265, R270, R272, R273) -/

theorem levelOf_toNat (fifo : List Byte) : (levelOf fifo).toNat = fifo.length % 128 := by
  simp [levelOf, BitVec.toNat_ofNat]

theorem not_isEmpty_eq (fifo : List Byte) : (!fifo.isEmpty) = decide (fifo.length ≠ 0) := by
  cases fifo <;> rfl

/-- Settles O5: the fields of `OUT.STATUS` have places of their own. -/
theorem outRegisterReads : Obligations.OutRegisterReads := by
  intro s
  refine ⟨_, _, _, _, rfl, place_zero_toNat (by decide) _, rfl, place_zero_toNat (by decide) _, rfl,
    place_zero_toNat (by decide) _, rfl, ?_⟩
  simp [-BitVec.getLsbD_eq_getElem, placeBit, BitVec.extractLsb'_or, extractLsb'_place_same, extractLsb'_place_disjoint,
    place_getLsbD, levelOf_toNat, not_isEmpty_eq]

/-! ### Packets that only end the open transaction (40_link_layer.md R149, R150, R155 to R169) -/

theorem onToken_of_not_accepted {addr : DevAddr} {s : State} (f : State → State) (h : tokenAccepted addr s = false) :
    onToken addr f s = s.setXact .idle := by
  rcases onToken_cases addr f s with ⟨h', -⟩ | ⟨-, heq⟩
  · rw [h] at h'; cases h'
  · exact heq

theorem tokenAccepted_eq_false {addr : DevAddr} {s : State}
    (h : s.usb.devState = .detached ∨ s.usb.devState = .powered ∨ addr ≠ s.usb.address) :
    tokenAccepted addr s = false := by
  rw [← Bool.not_eq_true, tokenAccepted_iff]
  rintro ⟨hanswers, haddr⟩
  rcases h with h | h | h
  · rw [h] at hanswers; cases hanswers
  · rw [h] at hanswers; cases hanswers
  · exact h haddr

/-- Settles O16: the three tokens share the filter. -/
theorem unacceptedTokenIgnored : Obligations.UnacceptedTokenIgnored := by
  intro s addr ep h i hi
  have hignored (f : State → State) := onToken_of_not_accepted f (tokenAccepted_eq_false h)
  fin_cases hi <;> exact congrArg _ (hignored _)

theorem exec_pidAck_of_no_handshake {s : State} (h : ∀ ep n, s.usb.xact ≠ .inHandshake ep n) :
    exec .pidAck s = .next (s.setXact .idle) := by
  simp only [exec, execPidAck]
  split
  · exact absurd ‹_› (h _ _)
  all_goals rfl

theorem onData_of_no_data_phase {s : State} (t : Bool) (payload : List Byte)
    (h : s.usb.xact = .idle ∨ ∃ ep n, s.usb.xact = .inHandshake ep n) : onData t payload s = s.setXact .idle := by
  rcases h with h | ⟨ep, n, h⟩ <;> simp only [onData, h]

/-- Settles O22. -/
theorem otherPacketsEndTransaction : Obligations.OtherPacketsEndTransaction := by
  intro s frame bytes
  refine ⟨fun i hi => ?_, exec_pidAck_of_no_handshake, fun h i hi => ?_, rfl⟩
  · fin_cases hi <;> rfl
  · fin_cases hi <;> exact congrArg _ (onData_of_no_data_phase _ _ h)

/-! ### The commit of an IN transfer (43_in_endpoint.md R225) -/

theorem inCommit_eq (ep : Ep) (n : Nat) (s : State) :
    inCommit ep n s =
      { s with
        usb := { s.usb with
          inFifo := s.usb.inFifo.drop n
          inReady := clearEp s.usb.inReady ep
          toggleIn := flipEp s.usb.toggleIn ep
          xact := .idle }
        u2s := s.u2s ++
          [.inDone ep, .inStatus (clearEp s.usb.inReady ep) (levelOf (s.usb.inFifo.drop n)) s.usb.inOverflow] } := by
  simp [inCommit, sendInStatus, State.sendU2S, State.modUsb]

theorem exec_pidAck_of_inHandshake {s : State} {ep : Ep} {n : Nat} (h : s.usb.xact = .inHandshake ep n) :
    exec .pidAck s = .next (inCommit ep n s) := by
  simp only [exec, execPidAck, h]

/-- Settles O19. -/
theorem ackCommitsInTransfer : Obligations.AckCommitsInTransfer := by
  intro s ep n h
  refine ⟨_, _, levelOf (s.usb.inFifo.drop n), clearEp_bit s.usb.inReady ep, flipEp_bit s.usb.toggleIn ep, ?_, ?_⟩
  · rw [levelOf_toNat, List.length_drop]
  · rw [exec_pidAck_of_inHandshake h, inCommit_eq]

/-! ### The line state (41_device_controller.md R181) -/

theorem lineChange_of_ne {ls : LineState} {s : State} (h : ls ≠ s.lineState) :
    lineChange ls s = { s with lineState := ls, u2s := s.u2s ++ [.line ls] } := if_neg h

theorem lineChange_of_eq {ls : LineState} {s : State} (h : ls = s.lineState) : lineChange ls s = s := if_pos h

/-- Settles O29. -/
theorem lineStateChange : Obligations.LineStateChange := fun _ _ =>
  ⟨fun h => congrArg _ (lineChange_of_ne h), fun h => congrArg _ (lineChange_of_eq h)⟩

/-! ### The messages of the IN endpoint (43_in_endpoint.md R227 to R232) -/

theorem sendInStatus_eq (s : State) :
    sendInStatus s =
      { s with u2s := s.u2s ++ [.inStatus s.usb.inReady (levelOf s.usb.inFifo) s.usb.inOverflow] } := rfl

section

variable {s : State}

theorem applyInPush_of_room {b : Byte} (h : s.usb.inFifo.length < s.cfg.inDepth) :
    applyInPush b s = sendInStatus (s.modUsb fun u => { u with inFifo := u.inFifo ++ [b] }) := by
  simp only [applyInPush, State.modUsb, if_pos h]

theorem applyInPush_of_full {b : Byte} (h : s.cfg.inDepth ≤ s.usb.inFifo.length) :
    applyInPush b s = sendInStatus (s.modUsb fun u => { u with inOverflow := true }) := by
  simp only [applyInPush, State.modUsb, if_neg (Nat.not_lt.2 h)]

end

theorem inDepth_lt (c : Config) : c.inDepth < 128 := by
  have := c.inDepthPred.isLt
  simp only [Config.inDepth]
  omega

/-- R231: only a transaction that waits for the handshake of an IN packet is closed. -/
theorem closeIn_eq (x : Xact) :
    x.closeIn = match x with
      | .inHandshake _ _ => .idle
      | x => x := by
  cases x <;> rfl

/-- Settles O30: each message publishes the IN state it leaves. -/
theorem inFifoMessages : Obligations.InFifoMessages := by
  intro s rest
  refine ⟨fun b hhead hroom => ?_, fun b hhead hfull => ?_, fun ep hhead => ?_, fun m hhead => ?_, fun hhead => ?_⟩
  · refine ⟨levelOf (s.usb.inFifo ++ [b]), ?_, act_s2u_eq hhead (applyInPush_of_room hroom)⟩
    have := inDepth_lt s.cfg
    rw [levelOf_toNat, List.length_append, List.length_singleton]
    omega
  · exact ⟨_, levelOf_toNat _, act_s2u_eq hhead (applyInPush_of_full hfull)⟩
  · exact ⟨_, _, setEp_bit s.usb.inReady ep, levelOf_toNat _, act_s2u_eq hhead rfl⟩
  · exact ⟨_, levelOf_toNat _, act_s2u_eq hhead rfl⟩
  · refine act_s2u_eq hhead ?_
    simp only [applyS2U, applyInFifoReset, State.modUsb, sendInStatus_eq, closeIn_eq]
    rfl

/-! ### The endpoint enables and the messages of the OUT endpoint (R230, 44_out_endpoint.md R257 to R259) -/

/-- A bit of `old` is cleared where `new` has a bit that `en` has not. -/
theorem and_not_newly_enabled_bit (old new en : Mask) (k : Nat) (hk : k < 16) :
    (old &&& ~~~(new &&& ~~~en)).getLsbD k =
      if new.getLsbD k = true ∧ en.getLsbD k = false then false else old.getLsbD k := by
  simp only [BitVec.getLsbD_and, BitVec.getLsbD_not, decide_eq_true hk, Bool.true_and]
  cases new.getLsbD k <;> cases en.getLsbD k <;> simp

/-- Settles O31: the two enables clear the toggles of the endpoints they newly enable. -/
theorem enableAndOutMessages : Obligations.EnableAndOutMessages := by
  intro s rest
  refine ⟨fun m hhead => ?_, fun m hhead => ?_, fun hhead => ?_, fun m hhead => ?_⟩
  · exact ⟨_, _, and_not_newly_enabled_bit s.usb.toggleIn m s.usb.inEn, levelOf_toNat _, act_s2u_eq hhead rfl⟩
  · exact ⟨_, and_not_newly_enabled_bit s.usb.toggleOut m s.usb.outEn, act_s2u_eq hhead rfl⟩
  · exact act_s2u_eq hhead rfl
  · exact act_s2u_eq hhead rfl

/-! ### Power-on (10_state.md R61) -/

/-- Settles O44: the values are those of `Usb.reset` and `Sys.reset`. -/
theorem resetValues : Obligations.ResetValues := ⟨rfl, rfl, rfl, rfl, fun _ => rfl⟩

end Sys2Proof.Machine
end

section
/-! What one action of the USB domain can do, case by case with the state it leaves: the packets by the instruction they
decode to, the messages by the rows of the table they take, the bus reset, the timeout and the line state. -/

namespace Sys2Proof.Machine

open Sys2Proof

/-! ### Packets (40_link_layer.md R149 to R169) -/

/-- The data packets that a transaction takes (R156, R157). -/
def IsDataPacket (i : Instr) (payload : List Byte) : Prop := i = .pidData0 payload ∨ i = .pidData1 payload

/-- What a packet can do, by the instruction it decodes to. -/
inductive PacketChange (s : State) : Instr → State → Prop
  /-- The open transaction ends (R149). -/
  | closed (i : Instr) : PacketChange s i (s.setXact .idle)
  /-- A SETUP or OUT token opens its transaction (R200, R250). -/
  | opened (i : Instr) (ep : Ep) {x : Xact} :
      x = .setupData ep ∨ x = .outData ep → answers s.usb.devState = true → PacketChange s i (s.setXact x)
  /-- R222. -/
  | inStalled (addr : DevAddr) (ep : Ep) :
      PacketChange s (.pidIn addr ep) (((s.setXact .idle).tx (handshakeBytes .stall)).sendU2S (.inStalled ep))
  /-- R223. -/
  | inData (addr : DevAddr) (ep : Ep) :
      s.usb.SendsInData ep →
        PacketChange s (.pidIn addr ep)
          ((s.tx (s.usb.inPacket ep)).setXact (.inHandshake ep s.usb.inFifo.length))
  /-- R224. -/
  | inNak (addr : DevAddr) (ep : Ep) : PacketChange s (.pidIn addr ep) ((s.setXact .idle).tx (handshakeBytes .nak))
  /-- R201, R203, R204. -/
  | setup {i : Instr} {payload : List Byte} {ep : Ep} {d : SetupBytes} :
      IsDataPacket i payload → s.usb.xact = .setupData ep →
        PacketChange s i
          { s with
            usb := { s.usb with
              toggleOut := setEp s.usb.toggleOut ep
              toggleIn := setEp s.usb.toggleIn ep
              outStall := if s.cfg.setupClearsStall = true then clearEp s.usb.outStall ep else s.usb.outStall
              inStall := if s.cfg.setupClearsStall = true then clearEp s.usb.inStall ep else s.usb.inStall
              xact := .idle }
            u2s := s.u2s ++ [.setup ep d s.cfg.setupClearsStall]
            txLog := s.txLog ++ [handshakeBytes .ack] }
  /-- R253. -/
  | outStalled {i : Instr} {payload : List Byte} (ep : Ep) :
      IsDataPacket i payload →
        PacketChange s i (((s.setXact .idle).tx (handshakeBytes .stall)).sendU2S (.outStalled ep))
  /-- R254. -/
  | outNak {i : Instr} {payload : List Byte} :
      IsDataPacket i payload → PacketChange s i ((s.setXact .idle).tx (handshakeBytes .nak))
  /-- A repeated packet (R255). -/
  | outRepeat {i : Instr} {payload : List Byte} :
      IsDataPacket i payload → PacketChange s i ((s.setXact .idle).tx (handshakeBytes .ack))
  /-- R256. -/
  | outData {i : Instr} {payload : List Byte} (ep : Ep) :
      IsDataPacket i payload → payload.length ≤ s.cfg.outDepth → s.usb.outAvail = false →
        PacketChange s i
          { s with
            usb := { s.usb with outAvail := true, toggleOut := flipEp s.usb.toggleOut ep, xact := .idle }
            u2s := s.u2s ++ [.outData ep payload]
            txLog := s.txLog ++ [handshakeBytes .ack] }
  /-- R225. -/
  | commit {ep : Ep} {n : Nat} :
      s.usb.xact = .inHandshake ep n →
        PacketChange s .pidAck
          { s with
            usb := { s.usb with
              inFifo := s.usb.inFifo.drop n
              inReady := clearEp s.usb.inReady ep
              toggleIn := flipEp s.usb.toggleIn ep
              xact := .idle }
            u2s := s.u2s ++
              [.inDone ep, .inStatus (clearEp s.usb.inReady ep) (levelOf (s.usb.inFifo.drop n)) s.usb.inOverflow] }

/-- A token does what its action does on the state with no transaction open, or only ends the open transaction. -/
theorem PacketChange.onToken {s : State} {i : Instr} {addr : DevAddr} {f : State → State}
    (h : answers s.usb.devState = true → PacketChange s i (f (s.setXact .idle))) :
    PacketChange s i (onToken addr f s) := by
  rcases onToken_cases addr f s with ⟨haccepted, heq⟩ | ⟨-, heq⟩ <;> rw [heq]
  · obtain ⟨hanswers, -⟩ := (tokenAccepted_iff _ _).1 haccepted
    exact h hanswers
  · exact .closed i

theorem PacketChange.inToken {s : State} (addr : DevAddr) (ep : Ep) (h : answers s.usb.devState = true) :
    PacketChange s (.pidIn addr ep) (inToken ep (s.setXact .idle)) := by
  rcases inToken_cases ep (s.setXact .idle) with ⟨-, heq⟩ | ⟨-, -, heq⟩ | ⟨hen, hstall, hready, heq⟩ | heq <;> rw [heq]
  · exact .closed _
  · exact .inStalled addr ep
  · exact .inData addr ep ⟨h, hen, hstall, hready⟩
  · exact .inNak addr ep

theorem PacketChange.setupPacket {s : State} {i : Instr} {payload : List Byte} {ep : Ep}
    (hi : IsDataPacket i payload) (hxact : s.usb.xact = .setupData ep) :
    PacketChange s i (setupPacket ep payload s) := by
  cases hd : SetupBytes.ofPayload payload with
  | none => rw [setupPacket_of_length_ne ep s ((ofPayload_eq_none_iff payload).1 hd)]; exact .closed i
  | some d => rw [setupPacket_of_some ep s hd]; exact .setup hi hxact

/-- The five answers to the data packet of an OUT transaction, by length, stall, back-pressure and toggle (R251). -/
theorem PacketChange.outPacket {s : State} {i : Instr} {payload : List Byte} (ep : Ep) (t : Bool)
    (hi : IsDataPacket i payload) : PacketChange s i (outPacket ep t payload s) := by
  rcases Nat.lt_or_ge s.cfg.outDepth payload.length with hlen | hlen
  · rw [outPacket_of_too_long hlen]; exact .closed i
  cases hstall : testEp s.usb.outStall ep with
  | true => rw [outPacket_of_stalled hlen hstall]; exact .outStalled ep hi
  | false =>
    cases havail : s.usb.outAvail with
    | true => rw [outPacket_of_avail hlen hstall havail]; exact .outNak hi
    | false =>
      by_cases htoggle : testEp s.usb.toggleOut ep = t
      · rw [outPacket_of_toggle_eq hlen hstall havail htoggle]; exact .outData ep hi hlen havail
      · rw [outPacket_of_toggle_ne hlen hstall havail htoggle]; exact .outRepeat hi

theorem PacketChange.onData {s : State} {i : Instr} {payload : List Byte} (t : Bool) (hi : IsDataPacket i payload) :
    PacketChange s i (onData t payload s) := by
  unfold Machine.onData
  split
  · exact .setupPacket hi ‹_›
  · exact .outPacket _ t hi
  · exact .closed i
  · exact .closed i

theorem exec_pid_change {i : Instr} {s t : State} (hi : isPid i = true) (h : exec i s = .next t) :
    PacketChange s i t := by
  cases i
  case pidOut addr ep =>
    cases h
    refine .onToken fun hanswers => ?_
    unfold outToken
    split
    exacts [.opened _ ep (.inr rfl) hanswers, .closed _]
  case pidSetup addr ep =>
    cases h
    refine .onToken fun hanswers => ?_
    unfold setupToken
    split
    exacts [.opened _ ep (.inl rfl) hanswers, .closed _]
  case pidIn addr ep => cases h; exact .onToken (.inToken addr ep)
  case pidData0 payload => cases h; exact .onData false (.inl rfl)
  case pidData1 payload => cases h; exact .onData true (.inr rfl)
  case pidAck =>
    cases hxact : s.usb.xact with
    | inHandshake ep n =>
      rw [exec_pidAck_of_inHandshake hxact, inCommit_eq] at h
      cases h
      exact .commit hxact
    | idle | setupData | outData =>
      rw [exec_pidAck_of_no_handshake (by simp [hxact])] at h
      cases h
      exact .closed _
  all_goals cases hi <;> cases h <;> exact .closed _

/-! ### Messages (41_device_controller.md R170, R176 to R180; R227 to R231, R257 to R259) -/

/-- The messages that publish a device state and an address without a core clear: the rows of R170 they take. -/
inductive DevMove (u : Usb) : S2UMsg → DevState → DevAddr → Prop
  | power : u.devState = .detached → DevMove u (.enable true) .powered u.address
  | stay : u.devState = .default → DevMove u (.address 0) u.devState u.address
  | address {a : DevAddr} :
      a ≠ 0 → u.devState = .default ∨ u.devState = .addressed → DevMove u (.address a) .addressed a
  | readdress {a : DevAddr} : a ≠ 0 → u.devState = .configured → DevMove u (.address a) u.devState a
  | unaddress : u.devState = .addressed ∨ u.devState = .configured → DevMove u (.address 0) .default 0
  | configure : u.devState = .addressed → DevMove u (.configured true) .configured u.address
  | deconfigure : u.devState = .configured → DevMove u (.configured false) .addressed u.address

/-- The messages that clear the core, with the device state and the speed they leave. -/
inductive SoftClear (u : Usb) : S2UMsg → DevState → Speed → Prop
  | disable : u.devState ≠ .detached → SoftClear u (.enable false) .detached .none
  | powered : u.devState = .powered → SoftClear u .softReset .powered u.speed
  | answering : u.devState ≠ .detached → u.devState ≠ .powered → SoftClear u .softReset .default u.speed

/-- The messages of the IN endpoint, with the USB domain they leave. -/
inductive InUpdate (depth : Nat) (u : Usb) : S2UMsg → Usb → Prop
  | push {b : Byte} :
      u.inFifo.length < depth → InUpdate depth u (.inPush b) { u with inFifo := u.inFifo ++ [b] }
  | overflow {b : Byte} : InUpdate depth u (.inPush b) { u with inOverflow := true }
  | ready {ep : Ep} : InUpdate depth u (.inReady ep) { u with inReady := setEp u.inReady ep }
  | stall {m : Mask} : InUpdate depth u (.inStall m) { u with inStall := m }
  | enable {m : Mask} :
      InUpdate depth u (.inEn m) { u with toggleIn := u.toggleIn &&& ~~~(m &&& ~~~u.inEn), inEn := m }
  | fifoReset :
      InUpdate depth u .inFifoReset
        { u with inFifo := [], inReady := 0, inOverflow := false, xact := u.xact.closeIn }

/-- The messages of the OUT endpoint, with the USB domain they leave. -/
inductive OutUpdate (u : Usb) : S2UMsg → Usb → Prop
  | ack : OutUpdate u .outAck { u with outAvail := false }
  | stall {m : Mask} : OutUpdate u (.outStall m) { u with outStall := m }
  | enable {m : Mask} :
      OutUpdate u (.outEn m) { u with toggleOut := u.toggleOut &&& ~~~(m &&& ~~~u.outEn), outEn := m }

/-- What the USB-domain rule of a message can do. -/
inductive MsgEffect (s : State) : S2UMsg → State → Prop
  | ignored {m : S2UMsg} : m ≠ .outAck → MsgEffect s m s
  | move {m : S2UMsg} {d : DevState} {a : DevAddr} :
      DevMove s.usb m d a →
        MsgEffect s m
          { s with
            usb := { s.usb with devState := d, address := a }
            u2s := s.u2s ++ [.devState d a s.usb.speed] }
  | clear {m : S2UMsg} {d : DevState} {sp : Speed} :
      SoftClear s.usb m d sp →
        MsgEffect s m
          { s with
            usb := { Usb.reset with devState := d, speed := sp }
            u2s := s.u2s ++ [.reset .soft, .inStatus 0 0 false, .devState d 0 sp] }
  | inMsg {m : S2UMsg} {v : Usb} :
      InUpdate s.cfg.inDepth s.usb m v →
        MsgEffect s m { s with usb := v, u2s := s.u2s ++ [.inStatus v.inReady (levelOf v.inFifo) v.inOverflow] }
  | outMsg {m : S2UMsg} {v : Usb} : OutUpdate s.usb m v → MsgEffect s m { s with usb := v }

theorem applyEnable_effect (v : Bool) (s : State) : MsgEffect s (.enable v) (applyEnable v s) := by
  by_cases hd : s.usb.devState = .detached
  · cases v with
    | true => rw [applyEnable_true_of_detached hd]; exact .move (.power hd)
    | false => rw [applyEnable_false_of_detached hd]; exact .ignored nofun
  · cases v with
    | true => rw [applyEnable_true_of_ne_detached hd]; exact .ignored nofun
    | false => rw [applyEnable_false_of_ne_detached hd]; exact .clear (.disable hd)

theorem applyAddress_effect (a : DevAddr) (s : State) : MsgEffect s (.address a) (applyAddress a s) := by
  by_cases ha : a = 0
  · subst ha
    cases hd : s.usb.devState with
    | detached => rw [applyAddress_of_detached_or_powered (.inl hd)]; exact .ignored nofun
    | powered => rw [applyAddress_of_detached_or_powered (.inr hd)]; exact .ignored nofun
    | default => rw [applyAddress_zero_of_default hd, ← hd]; exact .move (.stay hd)
    | addressed => rw [applyAddress_zero_of_addressed_or_configured (.inl hd)]; exact .move (.unaddress (.inl hd))
    | configured => rw [applyAddress_zero_of_addressed_or_configured (.inr hd)]; exact .move (.unaddress (.inr hd))
  · cases hd : s.usb.devState with
    | detached => rw [applyAddress_of_detached_or_powered (.inl hd)]; exact .ignored nofun
    | powered => rw [applyAddress_of_detached_or_powered (.inr hd)]; exact .ignored nofun
    | default => rw [applyAddress_ne_zero_of_default_or_addressed ha (.inl hd)]; exact .move (.address ha (.inl hd))
    | addressed => rw [applyAddress_ne_zero_of_default_or_addressed ha (.inr hd)]; exact .move (.address ha (.inr hd))
    | configured => rw [applyAddress_ne_zero_of_configured ha hd, ← hd]; exact .move (.readdress ha hd)

theorem applyConfigured_effect (v : Bool) (s : State) : MsgEffect s (.configured v) (applyConfigured v s) := by
  by_cases haddressed : s.usb.devState = .addressed ∧ v = true
  · obtain ⟨hd, rfl⟩ := haddressed
    rw [applyConfigured_true_of_addressed hd]
    exact .move (.configure hd)
  by_cases hconfigured : s.usb.devState = .configured ∧ v = false
  · obtain ⟨hd, rfl⟩ := hconfigured
    rw [applyConfigured_false_of_configured hd]
    exact .move (.deconfigure hd)
  · rw [applyConfigured_of_ne haddressed hconfigured]
    exact .ignored nofun

theorem applySoftReset_effect (s : State) : MsgEffect s .softReset (applySoftReset s) := by
  by_cases hdetached : s.usb.devState = .detached
  · rw [applySoftReset_of_detached hdetached]
    exact .ignored nofun
  by_cases hpowered : s.usb.devState = .powered
  · rw [applySoftReset_of_powered hpowered]
    exact .clear (.powered hpowered)
  · rw [applySoftReset_of_ne hdetached hpowered]
    exact .clear (.answering hdetached hpowered)

theorem applyInPush_effect (b : Byte) (s : State) : MsgEffect s (.inPush b) (applyInPush b s) := by
  rcases Nat.lt_or_ge s.usb.inFifo.length s.cfg.inDepth with hroom | hfull
  · rw [applyInPush_of_room hroom]
    exact .inMsg (.push hroom)
  · rw [applyInPush_of_full hfull]
    exact .inMsg .overflow

theorem applyS2U_effect (m : S2UMsg) (s : State) : MsgEffect s m (applyS2U m s) := by
  cases m with
  | enable v => exact applyEnable_effect v s
  | address a => exact applyAddress_effect a s
  | configured v => exact applyConfigured_effect v s
  | softReset => exact applySoftReset_effect s
  | inPush b => exact applyInPush_effect b s
  | inReady ep => exact .inMsg .ready
  | inStall m => exact .inMsg .stall
  | inEn m => exact .inMsg .enable
  | inFifoReset => exact .inMsg .fifoReset
  | outAck => exact .outMsg .ack
  | outStall m => exact .outMsg .stall
  | outEn m => exact .outMsg .enable

/-! ### Every action of the USB domain -/

/-- What a step of `HOST`/`USB` or of `S2U` can do. -/
inductive UsbStep (s : State) : Action → State → Prop
  /-- A malformed packet, a bus reset in `Detached`, no change of the line, or an empty channel. -/
  | nothing {a : Action} : isFw a = false → a ≠ .u2s → (a = .s2u → s.s2u = []) → UsbStep s a s
  | packet {bytes : List Byte} {i : Instr} {t : State} :
      decode s.cfg.csrBase (.packet bytes false) = .ok i → PacketChange s i t →
        UsbStep s (.input (.packet bytes false)) t
  | timeout : UsbStep s .timeout (s.setXact .idle)
  | lineState (ls : LineState) : UsbStep s (.lineState ls) { s with lineState := ls, u2s := s.u2s ++ [.line ls] }
  | busReset :
      s.usb.devState ≠ .detached →
        UsbStep s .busReset
          { s with
            usb := { Usb.reset with devState := .default, speed := .full }
            u2s := s.u2s ++ [.reset .bus, .inStatus 0 0 false, .devState .default 0 .full] ++
              (if s.usb.speed = .full then [] else [.speed])
            s2u := if s.cfg.s2uFlushOnReset = true then [] else s.s2u }
  | message {m : S2UMsg} {rest : List S2UMsg} {t : State} :
      s.s2u = m :: rest → MsgEffect { s with s2u := rest } m t → UsbStep s .s2u t

theorem busReset_of_detached {s : State} (h : s.usb.devState = .detached) : busReset s = s := if_pos h

theorem busReset_of_ne {s : State} (h : s.usb.devState ≠ .detached) :
    busReset s =
      { s with
        usb := { Usb.reset with devState := .default, speed := .full }
        u2s := s.u2s ++ [.reset .bus, .inStatus 0 0 false, .devState .default 0 .full] ++
          (if s.usb.speed = .full then [] else [.speed])
        s2u := if s.cfg.s2uFlushOnReset = true then [] else s.s2u } := by
  obtain ⟨-, hhandled⟩ := busResetClearsCore s
  exact Host.Outcome.next.inj (hhandled h)

theorem busReset_step (s : State) : UsbStep s .busReset (busReset s) := by
  by_cases hd : s.usb.devState = .detached
  · rw [busReset_of_detached hd]
    exact .nothing rfl nofun nofun
  · rw [busReset_of_ne hd]
    exact .busReset hd

/-- What an action that answers a next state has done: an access, a step of the USB domain, a delivery to the system
domain, or power-on. -/
theorem act_domain_cases {a : Action} {s t : State} (h : act a s = .next t) :
    (isFw a = true ∧ AccessFrame s t) ∨ UsbStep s a t ∨
    (a = .u2s ∧ ((s.u2s = [] ∧ t = s) ∨
      ∃ m rest, s.u2s = m :: rest ∧ t = { s with u2s := rest, sys := s.sys.take m })) ∨
    (a = .powerOn ∧ t = powerOn s) := by
  cases a with
  | input x =>
    cases x with
    | packet bytes err =>
      rcases packet_cases h with rfl | ⟨rfl, i, hdecode, hpid, hexec, -⟩
      · exact .inr (.inl (.nothing rfl nofun nofun))
      · exact .inr (.inl (.packet hdecode (exec_pid_change hpid hexec)))
    | csrRead ad => exact .inl ⟨rfl, access_frame rfl h⟩
    | csrWrite ad v => exact .inl ⟨rfl, access_frame rfl h⟩
  | busReset => cases h; exact .inr (.inl (busReset_step s))
  | timeout => cases h; exact .inr (.inl .timeout)
  | lineState ls =>
    cases h
    by_cases hls : ls = s.lineState
    · rw [lineChange_of_eq hls]; exact .inr (.inl (.nothing rfl nofun nofun))
    · rw [lineChange_of_ne hls]; exact .inr (.inl (.lineState ls))
  | s2u =>
    cases h
    rcases deliverS2U_cases s with ⟨hempty, heq⟩ | ⟨m, rest, hhead, heq⟩ <;> rw [heq]
    · exact .inr (.inl (.nothing rfl nofun fun _ => hempty))
    · exact .inr (.inl (.message hhead (applyS2U_effect m _)))
  | u2s => cases h; exact .inr (.inr (.inl ⟨rfl, deliverU2S_cases s⟩))
  | powerOn => cases h; exact .inr (.inr (.inr ⟨rfl, rfl⟩))

/-- Only steps of the USB domain and power-on change the USB-domain state. -/
theorem usbStep_or_powerOn {a : Action} {s t : State} (h : act a s = .next t) (hne : t.usb ≠ s.usb) :
    UsbStep s a t ∨ (a = .powerOn ∧ t = powerOn s) := by
  rcases act_domain_cases h with ⟨-, access⟩ | step | ⟨-, ⟨-, rfl⟩ | ⟨m, rest, -, rfl⟩⟩ | hpower
  · exact absurd access.usb hne
  · exact .inl step
  · exact absurd rfl hne
  · exact absurd rfl hne
  · exact .inr hpower

end Sys2Proof.Machine
end

section
/-! Proofs about what one action can change, whatever the action: the device state and the speed, the stall bits and the IN
toggles, what is sent, and the two channels. -/

namespace Sys2Proof.Machine

open Sys2Proof

/-! ### The device state and the speed (41_device_controller.md R170, R175) -/

/-- The device state, the address and the speed are the same. -/
structure Usb.SameDevice (u v : Usb) : Prop where
  devState : v.devState = u.devState
  address : v.address = u.address
  speed : v.speed = u.speed

theorem PacketChange.device {s t : State} {i : Instr} (h : PacketChange s i t) : s.usb.SameDevice t.usb := by
  cases h <;> exact ⟨rfl, rfl, rfl⟩

theorem InUpdate.device {depth : Nat} {u v : Usb} {m : S2UMsg} (h : InUpdate depth u m v) : u.SameDevice v := by
  cases h <;> exact ⟨rfl, rfl, rfl⟩

theorem OutUpdate.device {u v : Usb} {m : S2UMsg} (h : OutUpdate u m v) : u.SameDevice v := by
  cases h <;> exact ⟨rfl, rfl, rfl⟩

/-- Settles O27: of the messages, those of `DevMove` and `SoftClear` leave another device state than they found only along
the rows of R170. -/
theorem devStateTransitions : Obligations.DevStateTransitions := by
  intro a s t h hne
  rcases usbStep_or_powerOn h (fun heq => hne (by rw [heq])) with step | ⟨rfl, rfl⟩
  · cases step with
    | nothing | timeout | lineState => exact absurd rfl hne
    | packet _ change => exact absurd change.device.devState hne
    | busReset hd => exact .inr (.inl ⟨rfl, hd, rfl⟩)
    | @message m rest _ hhead effect =>
      refine .inl ⟨rfl, rest, ?_⟩
      rw [hhead]
      cases effect with
      | ignored => exact absurd rfl hne
      | inMsg update => exact absurd update.device.devState hne
      | outMsg update => exact absurd update.device.devState hne
      | move row =>
        cases row with
        | power hd => exact .inl ⟨rfl, hd, rfl⟩
        | stay | readdress => exact absurd rfl hne
        | address ha hd =>
          have hdefault := hd.resolve_right fun hd => hne hd.symm
          exact .inr (.inr (.inr (.inl ⟨_, ha, rfl, hdefault, rfl, rfl⟩)))
        | unaddress hd => exact .inr (.inr (.inr (.inr (.inl ⟨rfl, hd, rfl, rfl⟩))))
        | configure hd => exact .inr (.inr (.inr (.inr (.inr (.inl ⟨rfl, hd, rfl⟩)))))
        | deconfigure hd => exact .inr (.inr (.inr (.inr (.inr (.inr ⟨rfl, hd, rfl⟩)))))
      | clear row =>
        cases row with
        | disable => exact .inr (.inl ⟨rfl, rfl⟩)
        | powered hd => exact absurd hd.symm hne
        | answering hdetached hpowered =>
          refine .inr (.inr (.inl ⟨rfl, ?_, rfl⟩))
          cases hd : s.usb.devState with
          | detached => exact absurd hd hdetached
          | powered => exact absurd hd hpowered
          | default => exact absurd hd.symm hne
          | addressed => exact .inl rfl
          | configured => exact .inr rfl
  · exact .inr (.inr ⟨rfl, rfl⟩)

/-- Settles O28: a bus reset sends `E_SPEED` unless the speed was FULL, and a soft reset keeps the speed. -/
theorem speedChangesOnlyAtReset : Obligations.SpeedChangesOnlyAtReset := by
  intro a s t h hne
  rcases usbStep_or_powerOn h (fun heq => hne (by rw [heq])) with step | ⟨rfl, rfl⟩
  · cases step with
    | nothing | timeout | lineState => exact absurd rfl hne
    | packet _ change => exact absurd change.device.speed hne
    | busReset hd =>
      have hsend : (if s.usb.speed = .full then [] else [U2SMsg.speed]) = [.speed] := if_neg fun hfull => hne hfull.symm
      refine .inl ⟨rfl, hd, rfl, _, List.append_assoc _ _ _, ?_⟩
      rw [hsend]
      exact List.mem_append_right _ (List.mem_singleton_self _)
    | message hhead effect =>
      cases effect with
      | ignored | move => exact absurd rfl hne
      | inMsg update => exact absurd update.device.speed hne
      | outMsg update => exact absurd update.device.speed hne
      | clear row =>
        cases row with
        | disable => exact .inr (.inl ⟨rfl, ⟨_, hhead⟩, rfl⟩)
        | powered | answering => exact absurd rfl hne
  · exact .inr (.inr ⟨rfl, rfl⟩)

/-! ### The stall bits and the IN toggles (60_exceptions.md R296, 10_state.md R35) -/

/-- The actions that can clear the core: the deliveries of `M_ENABLE(0)` and `M_SOFT_RESET`, a bus reset, and power-on. -/
def State.clearsCore (a : Action) (s : State) : Prop :=
  (a = .s2u ∧ ∃ rest, s.s2u = .enable false :: rest ∨ s.s2u = .softReset :: rest) ∨ a = .busReset ∨ a = .powerOn

/-- The masks of `u` that only packets, endpoint messages and core clears change. -/
structure Usb.SameMasks (u v : Usb) : Prop where
  inStall : v.inStall = u.inStall
  outStall : v.outStall = u.outStall
  toggleIn : v.toggleIn = u.toggleIn

theorem Usb.SameMasks.refl (u : Usb) : u.SameMasks u := ⟨rfl, rfl, rfl⟩

theorem SoftClear.clearsCore {s : State} {m : S2UMsg} {rest : List S2UMsg} {d : DevState} {sp : Speed}
    (h : SoftClear s.usb m d sp) (hhead : s.s2u = m :: rest) : s.clearsCore .s2u := by
  cases h with
  | disable => exact .inl ⟨rfl, rest, .inl hhead⟩
  | powered | answering => exact .inl ⟨rfl, rest, .inr hhead⟩

/-- What can change a stall mask or the IN toggles. -/
theorem masks_cases {a : Action} {s t : State} (h : act a s = .next t) :
    s.usb.SameMasks t.usb ∨
    (∃ bytes i, a = .input (.packet bytes false) ∧ decode s.cfg.csrBase (.packet bytes false) = .ok i ∧
      PacketChange s i t) ∨
    (a = .s2u ∧ ∃ m rest, s.s2u = m :: rest ∧ (InUpdate s.cfg.inDepth s.usb m t.usb ∨ OutUpdate s.usb m t.usb)) ∨
    (s.clearsCore a ∧ t.usb.toggleIn = 0) := by
  by_cases heq : t.usb = s.usb
  · rw [heq]
    exact .inl (.refl _)
  rcases usbStep_or_powerOn h heq with step | ⟨rfl, rfl⟩
  · cases step with
    | nothing | timeout | lineState => exact .inl ⟨rfl, rfl, rfl⟩
    | packet hdecode change => exact .inr (.inl ⟨_, _, rfl, hdecode, change⟩)
    | busReset => exact .inr (.inr (.inr ⟨.inr (.inl rfl), rfl⟩))
    | message hhead effect =>
      cases effect with
      | ignored | move => exact .inl ⟨rfl, rfl, rfl⟩
      | inMsg update => exact .inr (.inr (.inl ⟨rfl, _, _, hhead, .inl update⟩))
      | outMsg update => exact .inr (.inr (.inl ⟨rfl, _, _, hhead, .inr update⟩))
      | clear row => exact .inr (.inr (.inr ⟨row.clearsCore (s := s) hhead, rfl⟩))
  · exact .inr (.inr (.inr ⟨.inr (.inr rfl), rfl⟩))

/-- Of the packets, an acknowledged SETUP changes the stall masks, and it and the ACK of an IN packet the IN toggles. -/
theorem PacketChange.masks {s t : State} {i : Instr} (h : PacketChange s i t) :
    s.usb.SameMasks t.usb ∨
    (∃ q, s.usb.xact = .setupData q ∧ t.txLog = s.txLog ++ [[0xD2]] ∧
      t.usb.inStall = (if s.cfg.setupClearsStall = true then clearEp s.usb.inStall q else s.usb.inStall) ∧
      t.usb.outStall = (if s.cfg.setupClearsStall = true then clearEp s.usb.outStall q else s.usb.outStall) ∧
      t.usb.toggleIn = setEp s.usb.toggleIn q) ∨
    (∃ q n, s.usb.xact = .inHandshake q n ∧ i = .pidAck ∧ t.usb.inStall = s.usb.inStall ∧
      t.usb.outStall = s.usb.outStall ∧ t.usb.toggleIn = flipEp s.usb.toggleIn q) := by
  cases h with
  | setup _ hxact => exact .inr (.inl ⟨_, hxact, rfl, rfl, rfl, rfl⟩)
  | commit hxact => exact .inr (.inr ⟨_, _, hxact, rfl, rfl, rfl, rfl⟩)
  | _ => exact .inl ⟨rfl, rfl, rfl⟩

theorem InUpdate.masks {depth : Nat} {u v : Usb} {m : S2UMsg} (h : InUpdate depth u m v) :
    v.outStall = u.outStall ∧ (v.inStall = u.inStall ∨ m = .inStall v.inStall) ∧
    (v.toggleIn = u.toggleIn ∨
      ∃ en, m = .inEn en ∧ v.toggleIn = u.toggleIn &&& ~~~(en &&& ~~~u.inEn)) := by
  cases h with
  | stall => exact ⟨rfl, .inr rfl, .inl rfl⟩
  | enable => exact ⟨rfl, .inl rfl, .inr ⟨_, rfl, rfl⟩⟩
  | push | overflow | ready | fifoReset => exact ⟨rfl, .inl rfl, .inl rfl⟩

theorem OutUpdate.masks {u v : Usb} {m : S2UMsg} (h : OutUpdate u m v) :
    v.inStall = u.inStall ∧ (v.outStall = u.outStall ∨ m = .outStall v.outStall) ∧ v.toggleIn = u.toggleIn := by
  cases h with
  | stall => exact ⟨rfl, .inr rfl, rfl⟩
  | ack | enable => exact ⟨rfl, .inl rfl, rfl⟩

/-- A bit that falls at the clear of an endpoint's bit is that bit. -/
theorem eq_of_ite_clearEp_falls {c : Bool} {m : Mask} {q ep : Ep} (hset : m.getLsbD ep.toNat = true)
    (hfall : (if c = true then clearEp m q else m).getLsbD ep.toNat = false) : c = true ∧ q = ep := by
  rw [ite_clearEp_bit c m q ep.toNat ep.isLt, hset] at hfall
  simp only [Bool.true_and, Bool.not_eq_false', Bool.and_eq_true, decide_eq_true_eq] at hfall
  obtain ⟨hc, hep⟩ := hfall
  exact ⟨hc, (BitVec.eq_of_toNat_eq hep).symm⟩

/-- A bit of a mask that has not changed does not fall. -/
theorem not_falls_of_eq {m m' : Mask} {k : Nat} (heq : m' = m) (hset : m.getLsbD k = true) :
    ¬m'.getLsbD k = false := by
  rw [heq, hset]
  decide

/-- Settles O56. -/
theorem stallPersists : Obligations.StallPersists := by
  intro a s t ep h
  rcases masks_cases h with same | ⟨bytes, i, rfl, -, change⟩ | ⟨rfl, m, rest, hhead, update⟩ | ⟨hclear, -⟩
  · exact ⟨fun hset hfall => absurd hfall (not_falls_of_eq same.inStall hset),
      fun hset hfall => absurd hfall (not_falls_of_eq same.outStall hset)⟩
  · rcases change.masks with same | ⟨q, hxact, htx, hin, hout, -⟩ | ⟨q, n, -, -, hin, hout, -⟩
    · exact ⟨fun hset hfall => absurd hfall (not_falls_of_eq same.inStall hset),
        fun hset hfall => absurd hfall (not_falls_of_eq same.outStall hset)⟩
    · constructor <;> intro hset hfall
      · rw [hin] at hfall
        obtain ⟨hsc, rfl⟩ := eq_of_ite_clearEp_falls hset hfall
        exact .inr (.inr (.inr ⟨hsc, hxact, htx⟩))
      · rw [hout] at hfall
        obtain ⟨hsc, rfl⟩ := eq_of_ite_clearEp_falls hset hfall
        exact .inr (.inr (.inr ⟨hsc, hxact, htx⟩))
    · exact ⟨fun hset hfall => absurd hfall (not_falls_of_eq hin hset),
        fun hset hfall => absurd hfall (not_falls_of_eq hout hset)⟩
  · rcases update with update | update
    · obtain ⟨hout, hin, -⟩ := update.masks
      refine ⟨fun hset hfall => ?_, fun hset hfall => absurd hfall (not_falls_of_eq hout hset)⟩
      have hm := hin.resolve_left fun heq => not_falls_of_eq heq hset hfall
      exact .inl ⟨rfl, rest, .inl ⟨_, hfall, by rw [hhead, hm]⟩⟩
    · obtain ⟨hin, hout, -⟩ := update.masks
      refine ⟨fun hset hfall => absurd hfall (not_falls_of_eq hin hset), fun hset hfall => ?_⟩
      have hm := hout.resolve_left fun heq => not_falls_of_eq heq hset hfall
      exact .inl ⟨rfl, rest, .inl ⟨_, hfall, by rw [hhead, hm]⟩⟩
  · rcases hclear with ⟨ha, rest, hhead⟩ | ha | ha
    · exact ⟨fun _ _ => .inl ⟨ha, rest, .inr hhead⟩, fun _ _ => .inl ⟨ha, rest, .inr hhead⟩⟩
    · exact ⟨fun _ _ => .inr (.inl ha), fun _ _ => .inr (.inl ha)⟩
    · exact ⟨fun _ _ => .inr (.inr (.inl ha)), fun _ _ => .inr (.inr (.inl ha))⟩

/-- Settles O57. -/
theorem inToggleChanges : Obligations.InToggleChanges := by
  intro a s t ep h hne
  have hkept (heq : t.usb.toggleIn = s.usb.toggleIn) : False := hne (by rw [heq])
  rcases masks_cases h with same | ⟨bytes, i, rfl, hdecode, change⟩ | ⟨rfl, m, rest, hhead, update⟩ | ⟨hclear, hzero⟩
  · exact (hkept same.toggleIn).elim
  · rcases change.masks with same | ⟨q, hxact, htx, -, -, htoggle⟩ | ⟨q, n, hxact, rfl, -, -, htoggle⟩
    · exact (hkept same.toggleIn).elim
    · rw [htoggle, setEp_bit _ q _ ep.isLt] at hne ⊢
      by_cases hq : ep.toNat = q.toNat
      · exact .inr (.inl ⟨by simp [hq], by rw [hxact, BitVec.eq_of_toNat_eq hq], htx⟩)
      · simp [hq] at hne
    · obtain ⟨rfl, -⟩ := packet_of_decode_pidAck hdecode
      rw [htoggle, flipEp_bit _ q _ ep.isLt] at hne
      by_cases hq : ep.toNat = q.toNat
      · exact .inl ⟨rfl, n, by rw [hxact, BitVec.eq_of_toNat_eq hq]⟩
      · simp [hq] at hne
  · rcases update with update | update
    · obtain ⟨-, -, heq | ⟨en, rfl, htoggle⟩⟩ := update.masks
      · exact (hkept heq).elim
      · rw [htoggle, and_not_newly_enabled_bit _ _ _ _ ep.isLt] at hne ⊢
        split at hne
        · rename_i hnew
          exact .inr (.inr ⟨if_pos hnew, .inl ⟨rfl, rest, .inl ⟨en, hhead, hnew⟩⟩⟩)
        · exact absurd rfl hne
    · obtain ⟨-, -, heq⟩ := update.masks
      exact (hkept heq).elim
  · have hbit : t.usb.toggleIn.getLsbD ep.toNat = false := by rw [hzero]; exact BitVec.getLsbD_zero
    rcases hclear with ⟨ha, rest, hhead⟩ | ha | ha
    · exact .inr (.inr ⟨hbit, .inl ⟨ha, rest, .inr hhead⟩⟩)
    · exact .inr (.inr ⟨hbit, .inr (.inl ha)⟩)
    · exact .inr (.inr ⟨hbit, .inr (.inr ha)⟩)

/-! ### What is sent (40_link_layer.md R151, 30_encoding.md R121) -/

theorem legalTx_inPacket (ep : Ep) (u : Usb) : legalTx (u.inPacket ep) := by
  refine .inr (.inr (.inr ⟨u.inFifo, _, _, append_extractLsb' (m := 8) (n := 8) (crc16 u.inFifo), ?_⟩))
  rw [Usb.inPacket, dataBytes_togglePid]
  cases testEp u.toggleIn ep
  · exact .inl rfl
  · exact .inr rfl

/-- A packet sends nothing, or one legal packet in answer to an IN token, or one handshake in answer to a data packet. -/
theorem PacketChange.tx {s t : State} {i : Instr} (h : PacketChange s i t) :
    t.txLog = s.txLog ∨
    ∃ p, t.txLog = s.txLog ++ [p] ∧ legalTx p ∧
      ((∃ addr ep, i = .pidIn addr ep) ∨
        ((∃ payload, IsDataPacket i payload) ∧ (p = [0xD2] ∨ p = [0x5A] ∨ p = [0x1E]))) := by
  cases h with
  | closed | opened | commit => exact .inl rfl
  | inStalled => exact .inr ⟨_, rfl, .inr (.inr (.inl rfl)), .inl ⟨_, _, rfl⟩⟩
  | inData => exact .inr ⟨_, rfl, legalTx_inPacket _ _, .inl ⟨_, _, rfl⟩⟩
  | inNak => exact .inr ⟨_, rfl, .inr (.inl rfl), .inl ⟨_, _, rfl⟩⟩
  | setup hi | outRepeat hi | outData _ hi => exact .inr ⟨_, rfl, .inl rfl, .inr ⟨⟨_, hi⟩, .inl rfl⟩⟩
  | outStalled _ hi => exact .inr ⟨_, rfl, .inr (.inr (.inl rfl)), .inr ⟨⟨_, hi⟩, .inr (.inr rfl)⟩⟩
  | outNak hi => exact .inr ⟨_, rfl, .inr (.inl rfl), .inr ⟨⟨_, hi⟩, .inr (.inl rfl)⟩⟩

theorem MsgEffect.txLog {s t : State} {m : S2UMsg} (h : MsgEffect s m t) : t.txLog = s.txLog := by
  cases h <;> rfl

/-- Settles O54. -/
theorem transmitsOnlyAnswers : Obligations.TransmitsOnlyAnswers := by
  intro a s t h hne
  rcases act_domain_cases h with ⟨-, access⟩ | step | ⟨-, ⟨-, rfl⟩ | ⟨m, rest, -, rfl⟩⟩ | ⟨-, rfl⟩
  · exact absurd access.txLog hne
  · cases step with
    | nothing | timeout | lineState | busReset => exact absurd rfl hne
    | message _ effect => exact absurd effect.txLog hne
    | packet hdecode change =>
      obtain ⟨p, htx, hlegal, hcause⟩ := change.tx.resolve_left hne
      exact ⟨p, _, _, htx, hlegal, rfl, hdecode, hcause⟩
  · exact absurd rfl hne
  · exact absurd rfl hne
  · exact absurd rfl hne

/-! ### The two channels (20_memory.md R92) -/

theorem PacketChange.channels {s t : State} {i : Instr} (h : PacketChange s i t) :
    t.s2u = s.s2u ∧ ∃ ms, t.u2s = s.u2s ++ ms := by
  cases h with
  | closed | opened | inData | inNak | outNak | outRepeat => exact ⟨rfl, [], (List.append_nil _).symm⟩
  | inStalled | outStalled | setup | outData | commit => exact ⟨rfl, _, rfl⟩

theorem MsgEffect.channels {s t : State} {m : S2UMsg} (h : MsgEffect s m t) :
    t.s2u = s.s2u ∧ ∃ ms, t.u2s = s.u2s ++ ms := by
  cases h with
  | ignored | outMsg => exact ⟨rfl, [], (List.append_nil _).symm⟩
  | move | clear | inMsg => exact ⟨rfl, _, rfl⟩

/-- A step of the USB domain is none of firmware and none of `U2S`; it sends on `u2s` only, and `S2U` alone takes a message
from `s2u`, but for the flush. -/
theorem UsbStep.channels {a : Action} {s t : State} (h : UsbStep s a t) :
    (isFw a = false ∧ a ≠ .u2s) ∧ (∃ ms, t.u2s = s.u2s ++ ms) ∧
    (t.s2u = (if a = .s2u then s.s2u.tail else s.s2u) ∨ (s.flushes a ∧ t.s2u = [])) := by
  cases h with
  | nothing hfw hu2s hempty =>
    refine ⟨⟨hfw, hu2s⟩, ⟨[], (List.append_nil _).symm⟩, .inl ?_⟩
    split
    · rw [hempty ‹_›]; rfl
    · rfl
  | packet _ change =>
    obtain ⟨hs2u, hu2s⟩ := change.channels
    exact ⟨⟨rfl, nofun⟩, hu2s, .inl hs2u⟩
  | timeout => exact ⟨⟨rfl, nofun⟩, ⟨[], (List.append_nil _).symm⟩, .inl rfl⟩
  | lineState => exact ⟨⟨rfl, nofun⟩, ⟨_, rfl⟩, .inl rfl⟩
  | busReset hd =>
    refine ⟨⟨rfl, nofun⟩, ⟨_, List.append_assoc _ _ _⟩, ?_⟩
    by_cases hflush : s.cfg.s2uFlushOnReset = true
    · exact .inr ⟨⟨rfl, hd, hflush⟩, if_pos hflush⟩
    · exact .inl (if_neg hflush)
  | message hhead effect =>
    obtain ⟨hs2u, hu2s⟩ := effect.channels
    exact ⟨⟨rfl, nofun⟩, hu2s, .inl (by rw [hs2u, hhead]; rfl)⟩

theorem PacketChange.sys {s t : State} {i : Instr} (h : PacketChange s i t) : t.sys = s.sys := by
  cases h <;> rfl

theorem MsgEffect.sys {s t : State} {m : S2UMsg} (h : MsgEffect s m t) : t.sys = s.sys := by
  cases h <;> rfl

theorem UsbStep.sys {a : Action} {s t : State} (h : UsbStep s a t) : t.sys = s.sys := by
  cases h with
  | packet _ change => exact change.sys
  | message _ effect => exact effect.sys
  | nothing | timeout | lineState | busReset => rfl

theorem ne_of_isFw {a b : Action} (ha : isFw a = true) (hb : isFw b = false) : a ≠ b := by
  rintro rfl
  rw [ha] at hb
  cases hb

/-- Settles O52. -/
theorem channelsAppendOnly : Obligations.ChannelsAppendOnly := by
  intro a s t h hpower
  rcases act_domain_cases h with ⟨hfw, access⟩ | step | ⟨rfl, heffect⟩ | ⟨hpower', -⟩
  · obtain ⟨ms, hs2u⟩ := access.s2u
    rw [if_neg (ne_of_isFw hfw rfl), if_neg (ne_of_isFw hfw rfl), access.u2s]
    exact ⟨⟨[], (List.append_nil _).symm, fun _ => rfl⟩, .inl ⟨ms, hs2u, fun hnot => absurd hfw (by simp [hnot])⟩⟩
  · obtain ⟨⟨hfw, hu2s⟩, ⟨ms, hsent⟩, hs2u⟩ := step.channels
    refine ⟨⟨ms, by rw [if_neg hu2s, hsent], ?_⟩, ?_⟩
    · rintro (hfw' | hu2s')
      · rw [hfw] at hfw'; cases hfw'
      · exact absurd hu2s' hu2s
    · rcases hs2u with hs2u | ⟨⟨ha, hd, hflush⟩, hs2u⟩
      · exact .inl ⟨[], by rw [hs2u, List.append_nil], fun _ => rfl⟩
      · exact .inr ⟨ha, hd, hflush, hs2u⟩
  · have hs2u : t.s2u = s.s2u ∧ t.u2s = s.u2s.tail := by
      rcases heffect with ⟨hempty, rfl⟩ | ⟨m, rest, hhead, rfl⟩
      · rw [hempty]; exact ⟨rfl, rfl⟩
      · rw [hhead]; exact ⟨rfl, rfl⟩
    obtain ⟨hs2u, hu2s⟩ := hs2u
    exact ⟨⟨[], by rw [hu2s, if_pos rfl, List.append_nil], fun _ => rfl⟩,
      .inl ⟨[], by rw [hs2u, if_neg nofun, List.append_nil], fun _ => rfl⟩⟩
  · exact absurd hpower' hpower

end Sys2Proof.Machine
end

section
/-! Proofs about register accesses and the system domain: what an access can do to it, and when a SETUP is replaced. -/

namespace Sys2Proof.Machine

open Sys2Proof

/-! ### The mirrors (10_state.md R46, R47) -/

/-- The six values of the USB domain that the system domain mirrors (60_exceptions.md R311). -/
structure Mirrors where
  state : DevState
  address : DevAddr
  speed : Speed
  inReady : Mask
  inLevel : BitVec 7
  inOverflow : Bool

def Sys.mirrors (y : Sys) : Mirrors := ⟨y.mState, y.mAddress, y.mSpeed, y.mInReady, y.mInLevel, y.mInOverflow⟩

/-! ### What an access can do to the system domain -/

/-- The places of the stored OUT packet that firmware sees or empties: the OUT FIFO and the acknowledges sent. -/
def State.sysPlaces (s : State) : Nat := s.sys.outAvailSys.toNat + s.s2u.countP (· == .outAck)

/-- What a register access keeps of the system domain; `ack` says that it may be a write of `SETUP.ACK`. -/
structure AccessEffect (ack : Prop) (s t : State) : Prop where
  mirrors : t.sys.mirrors = s.sys.mirrors
  setupData : t.sys.setupData = s.sys.setupData
  setupReady : ¬ack → t.sys.setupReady = s.sys.setupReady
  outFifo : t.sys.outFifo.length ≤ s.sys.outFifo.length
  sysPlaces : t.sysPlaces = s.sysPlaces

section

variable {ack : Prop} {s t u : State}

theorem AccessEffect.refl (s : State) : AccessEffect ack s s := ⟨rfl, rfl, fun _ => rfl, le_rfl, rfl⟩

theorem AccessEffect.trans (h : AccessEffect ack s t) (h' : AccessEffect ack t u) : AccessEffect ack s u :=
  ⟨h'.mirrors.trans h.mirrors, h'.setupData.trans h.setupData,
    fun hack => (h'.setupReady hack).trans (h.setupReady hack), h'.outFifo.trans h.outFifo,
    h'.sysPlaces.trans h.sysPlaces⟩

theorem AccessEffect.mono {ack' : Prop} (h : AccessEffect ack s t) (himp : ack → ack') : AccessEffect ack' s t :=
  ⟨h.mirrors, h.setupData, fun hack => h.setupReady fun h => hack (himp h), h.outFifo, h.sysPlaces⟩

theorem AccessEffect.send (h : AccessEffect ack s t) {m : S2UMsg} (hm : m ≠ .outAck) :
    AccessEffect ack s (t.sendS2U m) :=
  h.trans ⟨rfl, rfl, fun _ => rfl, le_rfl, by simp [State.sysPlaces, hm]⟩

theorem AccessEffect.returnRead (s : State) (v : Word) : AccessEffect ack s (s.returnRead v) :=
  ⟨rfl, rfl, fun _ => rfl, le_rfl, rfl⟩

/-- R262: the packet moves from the FIFO to the acknowledge on its way. -/
theorem AccessEffect.outClear (h : AccessEffect ack s t) : AccessEffect ack s (outClear t) := by
  rcases outClear_cases t with ⟨havail, heq⟩ | ⟨-, heq⟩ <;> rw [heq]
  · refine h.trans ⟨rfl, rfl, fun _ => rfl, Nat.zero_le _, ?_⟩
    simp [State.sysPlaces, havail, Nat.add_comm]
  · exact h

theorem exec_read_effect {r : Reg} (h : exec r.readInstr s = .next t) : AccessEffect ack s t := by
  obtain ⟨v, rfl⟩ := exec_read h
  refine .trans ?_ (.returnRead _ v)
  split
  · exact ⟨rfl, rfl, fun _ => rfl, by simp, rfl⟩
  · exact .refl s

theorem exec_write_effect {r : Reg} {v : Word} (h : exec (r.writeInstr v) s = .next t) :
    AccessEffect (r = .setupAck) s t := by
  cases r
  case outAck | outCtrl => cases h; split; exacts [(AccessEffect.refl s).outClear, .refl s]
  case outStall =>
    simp only [Reg.writeInstr, exec, execWOutStall] at h
    cases h
    refine .send ?_ nofun
    have hreg : AccessEffect (Reg.outStall = .setupAck) s (s.modSys fun y => { y with outStallReg := maskField v }) :=
      ⟨rfl, rfl, fun _ => rfl, le_rfl, rfl⟩
    split
    exacts [hreg.outClear, hreg]
  case inStall =>
    simp only [Reg.writeInstr, exec, execWInStall] at h
    cases h
    refine .send ?_ nofun
    have hreg : AccessEffect (Reg.inStall = .setupAck) s (s.modSys fun y => { y with inStallReg := maskField v }) :=
      ⟨rfl, rfl, fun _ => rfl, le_rfl, rfl⟩
    split
    exacts [hreg.send nofun, hreg]
  case dcCtrl | inReady | inCtrl => cases h; split; exacts [.send (.refl s) nofun, .refl s]
  case setupAck => cases h; split; exacts [⟨rfl, rfl, fun hack => absurd rfl hack, le_rfl, rfl⟩, .refl s]
  case inEpEnable | outEpEnable => cases h; refine .send ?_ nofun; exact ⟨rfl, rfl, fun _ => rfl, le_rfl, rfl⟩
  case dcEnable | dcAddress | dcConfigured | inData => cases h; exact .send (.refl s) nofun
  all_goals cases h; exact ⟨rfl, rfl, fun _ => rfl, le_rfl, rfl⟩

theorem access_effect {a : Action} (ha : isFw a = true) (h : act a s = .next t) :
    AccessEffect (∃ v, a = wReg s.cfg .setupAck v) s t := by
  rcases access_cases ha h with rfl | rfl | ⟨r, -, -, hexec⟩ | ⟨r, v, rfl, -, hexec⟩
  · exact .refl _
  · exact .returnRead s 0
  · exact exec_read_effect hexec
  · refine (exec_write_effect hexec).mono ?_
    rintro rfl
    exact ⟨v, rfl⟩

end

/-! ### The detection of a replaced SETUP (42_setup.md R213) -/

/-- Of the messages, only `E_SETUP` and `E_RESET` touch the SETUP bytes and `setup_ready`. -/
theorem take_setup_cases (m : U2SMsg) (y : Sys) :
    ((y.take m).setupData = y.setupData ∧ (y.take m).setupReady = y.setupReady) ∨
    (∃ ep sc, m = .setup ep (y.take m).setupData sc ∧ (y.take m).setupReady = true) ∨ ∃ kind, m = .reset kind := by
  cases m with
  | setup ep d sc => exact .inr (.inl ⟨ep, sc, rfl, rfl⟩)
  | reset kind => exact .inr (.inr ⟨kind, rfl⟩)
  | _ => exact .inl ⟨rfl, rfl⟩

/-- Settles O58. -/
theorem setupChangeIsDetectable : Obligations.SetupChangeIsDetectable := by
  intro a s t h
  cases hfw : isFw a with
  | true =>
    have effect := access_effect hfw h
    refine ⟨fun hne => absurd effect.setupData hne, fun hready hfall => .inl ?_⟩
    by_contra hack
    rw [effect.setupReady hack, hready] at hfall
    cases hfall
  | false =>
    by_cases hpower : a = .powerOn
    · exact ⟨fun _ => .inr (.inr hpower), fun _ _ => .inr (.inr hpower)⟩
    by_cases hu2s : a = .u2s
    · subst hu2s
      cases h
      rcases deliverU2S_cases s with ⟨-, heq⟩ | ⟨m, rest, hhead, heq⟩
      · rw [heq]
        exact ⟨fun hne => absurd rfl hne, fun hready hfall => absurd (hready.symm.trans hfall) nofun⟩
      · rw [heq, hhead]
        rcases take_setup_cases m s.sys with ⟨hdata, hkept⟩ | ⟨ep, sc, hm, hset⟩ | ⟨kind, rfl⟩
        · refine ⟨fun hne => absurd hdata hne, fun hready hfall => ?_⟩
          exact absurd (hready.symm.trans (hkept.symm.trans hfall)) nofun
        · exact ⟨fun _ => .inl ⟨rfl, ⟨ep, sc, rest, by rw [← hm]⟩, hset⟩,
            fun _ hfall => absurd (hset.symm.trans hfall) nofun⟩
        · exact ⟨fun _ => .inr (.inl ⟨rfl, kind, rest, rfl⟩), fun _ _ => .inr (.inl ⟨rfl, kind, rest, rfl⟩)⟩
    · rw [act_sys h hfw hu2s hpower]
      exact ⟨fun hne => absurd rfl hne, fun hready hfall => absurd (hready.symm.trans hfall) nofun⟩

end Sys2Proof.Machine
end

section
/-! Proofs of the three invariants: each holds at reset and every action keeps it, shown along the cases of
`act_domain_cases`. -/

namespace Sys2Proof.Machine

open Sys2Proof

/-- What every action keeps, and what does not depend on the agenda and the draws, every step keeps. -/
theorem step_keeps {P : State → Prop}
    (hfetch : ∀ (s : State) (l : List Action) (d : Nat), P s → P { s with agenda := l, draws := d })
    (hact : ∀ (a : Action) (s t : State), act a s = .next t → P s → P t) {s t : State} (h : step s = .next t)
    (hs : P s) : P t := by
  refine hact _ _ _ h ?_
  rcases fetch_cases s with ⟨a, rest, -, heq⟩ | ⟨-, heq⟩ <;> rw [heq]
  · exact hfetch s rest s.draws hs
  · exact hfetch s s.agenda (s.draws + 1) hs

/-! ### The invariants of the core (10_state.md R53) -/

/-- The USB-domain part of `State.Inv`. -/
structure Usb.Ok (depth : Nat) (u : Usb) : Prop where
  address : u.address ≠ 0 ↔ hasAddress u.devState = true
  speed : u.speed = .full ↔ answers u.devState = true
  inFifo : u.inFifo.length ≤ depth
  xact : u.xactOk = true

theorem State.Inv.usb {s : State} (h : s.Inv) : s.usb.Ok s.cfg.inDepth := ⟨h.address, h.speed, h.inFifo, h.xact⟩

/-- A change that leaves the open transaction and keeps what it rests on. -/
theorem Usb.xactOk_of_le {u v : Usb} (h : u.xactOk = true) (hxact : v.xact = u.xact)
    (hanswers : answers u.devState = true → answers v.devState = true) (hlen : u.inFifo.length ≤ v.inFifo.length)
    (hready : ∀ ep, testEp u.inReady ep = true → testEp v.inReady ep = true) : v.xactOk = true := by
  unfold Usb.xactOk at h ⊢
  rw [hxact]
  cases hx : u.xact with
  | idle => rfl
  | setupData ep => rw [hx] at h; exact hanswers h
  | outData ep => rw [hx] at h; exact hanswers h
  | inHandshake ep n =>
    rw [hx] at h
    simp only [Bool.and_eq_true, decide_eq_true_eq] at h ⊢
    obtain ⟨⟨ha, hn⟩, hr⟩ := h
    exact ⟨⟨hanswers ha, hn.trans hlen⟩, hready ep hr⟩

theorem PacketChange.ok {s t : State} {i : Instr} (h : PacketChange s i t) (hs : s.usb.Ok s.cfg.inDepth) :
    t.usb.Ok s.cfg.inDepth := by
  obtain ⟨haddress, hspeed, hfifo, -⟩ := hs
  cases h with
  | opened _ ep hx hanswers => rcases hx with rfl | rfl <;> exact ⟨haddress, hspeed, hfifo, hanswers⟩
  | inData _ ep hsends =>
    refine ⟨haddress, hspeed, hfifo, ?_⟩
    simp [Usb.xactOk, hsends.answers, hsends.ready]
  | commit =>
    refine ⟨haddress, hspeed, le_trans ?_ hfifo, rfl⟩
    rw [List.length_drop]
    exact Nat.sub_le _ _
  | _ => exact ⟨haddress, hspeed, hfifo, rfl⟩

theorem DevMove.answers_iff {u : Usb} {m : S2UMsg} {d : DevState} {a : DevAddr} (h : DevMove u m d a) :
    answers u.devState = true ↔ answers d = true := by
  cases h with
  | stay | readdress => exact Iff.rfl
  | power hd | configure hd | deconfigure hd => simp [hd, answers]
  | address _ hd | unaddress hd => rcases hd with hd | hd <;> simp [hd, answers]

/-- The address of a row is nonzero exactly in `Addressed` and `Configured`. -/
theorem DevMove.address_iff {u : Usb} {m : S2UMsg} {d : DevState} {a : DevAddr} (h : DevMove u m d a)
    (hu : u.address ≠ 0 ↔ hasAddress u.devState = true) : a ≠ 0 ↔ hasAddress d = true := by
  cases h with
  | stay => exact hu
  | power hd | configure hd | deconfigure hd => exact hu.trans (by simp [hd, hasAddress])
  | address ha => exact iff_of_true ha rfl
  | readdress ha hd => exact iff_of_true ha (by simp [hd, hasAddress])
  | unaddress => decide

theorem SoftClear.speed_iff {u : Usb} {m : S2UMsg} {d : DevState} {sp : Speed} (h : SoftClear u m d sp)
    (hu : u.speed = .full ↔ answers u.devState = true) : sp = .full ↔ answers d = true := by
  cases h with
  | disable => decide
  | powered hd => rw [hu, hd]
  | answering hdetached hpowered =>
    refine hu.trans (iff_of_true ?_ rfl)
    cases hd : u.devState with
    | detached => exact absurd hd hdetached
    | powered => exact absurd hd hpowered
    | default | addressed | configured => rfl

/-- The device state that a core clear leaves answers at address 0 only. -/
theorem SoftClear.not_hasAddress {u : Usb} {m : S2UMsg} {d : DevState} {sp : Speed} (h : SoftClear u m d sp) :
    hasAddress d = false := by
  cases h <;> rfl

theorem testEp_setEp_of_testEp {m : Mask} {q ep : Ep} (h : testEp m ep = true) : testEp (setEp m q) ep = true := by
  rw [testEp, setEp_bit m q _ ep.isLt, show m.getLsbD ep.toNat = true from h, Bool.true_or]

/-- R231: no IN packet waits for its handshake once the FIFO is empty. -/
theorem xactOk_of_closeIn {u v : Usb} (h : u.xactOk = true) (hxact : v.xact = u.xact.closeIn)
    (hstate : v.devState = u.devState) : v.xactOk = true := by
  unfold Usb.xactOk at h ⊢
  rw [hxact, hstate]
  cases hx : u.xact <;> rw [hx] at h
  case setupData | outData => exact h
  all_goals rfl

theorem InUpdate.ok {depth : Nat} {u v : Usb} {m : S2UMsg} (h : InUpdate depth u m v) (hu : u.Ok depth) :
    v.Ok depth := by
  obtain ⟨haddress, hspeed, hfifo, hxact⟩ := hu
  cases h with
  | push hroom =>
    refine ⟨haddress, hspeed, by simpa using hroom, Usb.xactOk_of_le hxact rfl id ?_ fun _ => id⟩
    simp
  | ready => exact ⟨haddress, hspeed, hfifo, Usb.xactOk_of_le hxact rfl id le_rfl fun _ => testEp_setEp_of_testEp⟩
  | fifoReset => exact ⟨haddress, hspeed, Nat.zero_le _, xactOk_of_closeIn hxact rfl rfl⟩
  | overflow | stall | enable => exact ⟨haddress, hspeed, hfifo, hxact⟩

theorem OutUpdate.ok {depth : Nat} {u v : Usb} {m : S2UMsg} (h : OutUpdate u m v) (hu : u.Ok depth) : v.Ok depth := by
  cases h <;> exact ⟨hu.address, hu.speed, hu.inFifo, hu.xact⟩

/-- What a core clear or power-on leaves. -/
theorem ok_reset {depth : Nat} {d : DevState} {sp : Speed} (haddress : hasAddress d = false)
    (hspeed : sp = .full ↔ answers d = true) : ({ Usb.reset with devState := d, speed := sp } : Usb).Ok depth := by
  refine ⟨iff_of_false (fun hne => hne rfl) ?_, hspeed, Nat.zero_le _, rfl⟩
  simp [haddress]

theorem MsgEffect.ok {s t : State} {m : S2UMsg} (h : MsgEffect s m t) (hs : s.usb.Ok s.cfg.inDepth) :
    t.usb.Ok s.cfg.inDepth := by
  cases h with
  | ignored => exact hs
  | move row =>
    exact ⟨row.address_iff hs.address, hs.speed.trans row.answers_iff, hs.inFifo,
      Usb.xactOk_of_le hs.xact rfl row.answers_iff.1 le_rfl fun _ => id⟩
  | clear row => exact ok_reset row.not_hasAddress (row.speed_iff hs.speed)
  | inMsg update => exact update.ok hs
  | outMsg update => exact update.ok hs

/-- The messages that fit an OUT FIFO of the given depth. -/
def AllFit (depth : Nat) (ms : List U2SMsg) : Prop := ∀ m ∈ ms, m.fits depth = true

theorem State.Inv.allFit {s : State} (h : s.Inv) : AllFit s.cfg.outDepth s.u2s := h.inFlight

theorem AllFit.append {depth : Nat} {l ms : List U2SMsg} (h : AllFit depth l) (hms : AllFit depth ms) :
    AllFit depth (l ++ ms) := fun m hm => (List.mem_append.1 hm).elim (h m) (hms m)

theorem PacketChange.allFit {s t : State} {i : Instr} (h : PacketChange s i t) (hs : AllFit s.cfg.outDepth s.u2s) :
    AllFit s.cfg.outDepth t.u2s := by
  cases h with
  | closed | opened | inData | inNak | outNak | outRepeat => exact hs
  | inStalled | outStalled | setup | commit => exact hs.append (by simp [AllFit, U2SMsg.fits])
  | outData ep _ hlen => exact hs.append (by simpa [AllFit, U2SMsg.fits] using hlen)

theorem MsgEffect.allFit {s t : State} {m : S2UMsg} (h : MsgEffect s m t) (hs : AllFit s.cfg.outDepth s.u2s) :
    AllFit s.cfg.outDepth t.u2s := by
  cases h with
  | ignored | outMsg => exact hs
  | move | clear | inMsg => exact hs.append (by simp [AllFit, U2SMsg.fits])

/-- The USB-domain part of the invariants after a step of that domain. -/
theorem UsbStep.ok {a : Action} {s t : State} (h : UsbStep s a t) (hs : s.Inv) :
    t.usb.Ok s.cfg.inDepth ∧ AllFit s.cfg.outDepth t.u2s := by
  cases h with
  | nothing => exact ⟨hs.usb, hs.allFit⟩
  | packet _ change => exact ⟨change.ok hs.usb, change.allFit hs.allFit⟩
  | timeout => exact ⟨⟨hs.address, hs.speed, hs.inFifo, rfl⟩, hs.allFit⟩
  | lineState => exact ⟨hs.usb, hs.allFit.append (by simp [AllFit, U2SMsg.fits])⟩
  | busReset =>
    refine ⟨ok_reset rfl (by decide), (hs.allFit.append ?_).append ?_⟩
    · simp [AllFit, U2SMsg.fits]
    · split <;> simp [AllFit, U2SMsg.fits]
  | message _ effect => exact ⟨effect.ok hs.usb, effect.allFit hs.allFit⟩

/-- A delivery fills the OUT FIFO with its own packet or empties it. -/
theorem take_outFifo_le {depth : Nat} {m : U2SMsg} {y : Sys} (hm : m.fits depth = true)
    (hy : y.outFifo.length ≤ depth) : (y.take m).outFifo.length ≤ depth := by
  cases m with
  | outData ep d => exact of_decide_eq_true hm
  | reset kind => exact Nat.zero_le _
  | _ => exact hy

/-- With both domains and both channels at their reset values, whatever the rest. -/
theorem inv_of_reset {s : State} (husb : s.usb = Usb.reset) (hsys : s.sys = Sys.reset) (hu2s : s.u2s = []) : s.Inv := by
  obtain ⟨haddress, hspeed, hfifo, hxact⟩ :=
    ok_reset (depth := s.cfg.inDepth) (d := .detached) (sp := .none) rfl (by decide)
  constructor <;> simp only [husb, hsys, hu2s]
  exacts [haddress, hspeed, hfifo, Nat.zero_le _, nofun, hxact]

theorem act_inv {a : Action} {s t : State} (h : act a s = .next t) (hs : s.Inv) : t.Inv := by
  have hcfg := act_cfg h
  rcases act_domain_cases h with ⟨hfw, access⟩ | step | ⟨-, ⟨-, rfl⟩ | ⟨m, rest, hhead, rfl⟩⟩ | ⟨-, rfl⟩
  · have hfifo := (access_effect hfw h).outFifo
    obtain ⟨haddress, hspeed, hin, hout, hflight, hxact⟩ := hs
    constructor <;> simp only [access.usb, access.u2s, hcfg]
    exacts [haddress, hspeed, hin, hfifo.trans hout, hflight, hxact]
  · obtain ⟨⟨haddress, hspeed, hin, hxact⟩, hflight⟩ := step.ok hs
    have hout : t.sys.outFifo.length ≤ s.cfg.outDepth := step.sys ▸ hs.outFifo
    rw [← hcfg] at hin hflight hout
    exact ⟨haddress, hspeed, hin, hout, hflight, hxact⟩
  · exact hs
  · have hflight := hs.inFlight
    rw [hhead] at hflight
    exact ⟨hs.address, hs.speed, hs.inFifo, take_outFifo_le (hflight m List.mem_cons_self) hs.outFifo,
      fun m' hm' => hflight m' (List.mem_cons_of_mem m hm'), hs.xact⟩
  · exact inv_of_reset rfl rfl rfl

/-- Settles O45. -/
theorem stepKeepsInv : Obligations.StepKeepsInv := fun _ _ =>
  step_keeps (P := State.Inv) (fun _ _ _ h => ⟨h.address, h.speed, h.inFifo, h.outFifo, h.inFlight, h.xact⟩)
    fun _ _ _ => act_inv

end Sys2Proof.Machine
end

section
/-! Proofs of the invariants that tie the two domains: the mirrors on course to the USB-domain values, and the one stored
OUT packet. -/

namespace Sys2Proof.Machine

open Sys2Proof

/-! ### The mirrors (60_exceptions.md R311) -/

/-- The values of the USB domain that the mirrors follow. -/
def Usb.mirrored (u : Usb) : Mirrors := ⟨u.devState, u.address, u.speed, u.inReady, levelOf u.inFifo, u.inOverflow⟩

/-- What the delivery of a message makes of the mirrors. -/
def U2SMsg.mirror : U2SMsg → Mirrors → Mirrors
  | .devState st a sp, w => { w with state := st, address := a, speed := sp }
  | .inStatus r l o, w => { w with inReady := r, inLevel := l, inOverflow := o }
  | .line _, w | .reset _, w | .speed, w | .setup _ _ _, w | .inDone _, w | .inStalled _, w | .outData _ _, w
  | .outStalled _, w => w

/-- The mirrors once the messages `ms` have been delivered. -/
def Mirrors.after (ms : List U2SMsg) (w : Mirrors) : Mirrors := ms.foldl (fun w m => m.mirror w) w

theorem take_mirrors (m : U2SMsg) (y : Sys) : (y.take m).mirrors = m.mirror y.mirrors := by
  cases m <;> rfl

theorem foldl_take_mirrors (ms : List U2SMsg) (y : Sys) :
    (ms.foldl (fun y m => y.take m) y).mirrors = y.mirrors.after ms := by
  induction ms generalizing y with
  | nil => rfl
  | cons m ms ih => exact (ih (y.take m)).trans (congrArg (Mirrors.after ms) (take_mirrors m y))

theorem Mirrors.after_append (l ms : List U2SMsg) (w : Mirrors) : w.after (l ++ ms) = (w.after l).after ms :=
  List.foldl_append

theorem mirrorsFollow_iff (s : State) : s.MirrorsFollow ↔ s.sys.mirrors.after s.u2s = s.usb.mirrored := by
  rw [← foldl_take_mirrors]
  constructor
  · rintro ⟨h1, h2, h3, h4, h5, h6⟩
    simp only [State.settledSys] at h1 h2 h3 h4 h5 h6
    simp only [Sys.mirrors, Usb.mirrored, h1, h2, h3, h4, h5, h6]
  · intro h
    simp only [Sys.mirrors, Usb.mirrored, Mirrors.mk.injEq] at h
    obtain ⟨h1, h2, h3, h4, h5, h6⟩ := h
    exact ⟨h1, h2, h3, h4, h5, h6⟩

/-- An action keeps the mirrors on course if the messages it appends take them from the old USB-domain values to the
new ones. -/
theorem State.MirrorsFollow.append {s t : State} (h : s.MirrorsFollow) (ms : List U2SMsg)
    (hsys : t.sys.mirrors = s.sys.mirrors) (hu2s : t.u2s = s.u2s ++ ms)
    (husb : s.usb.mirrored.after ms = t.usb.mirrored) : t.MirrorsFollow := by
  rw [mirrorsFollow_iff] at h ⊢
  rw [hu2s, hsys, Mirrors.after_append, h, husb]

theorem State.MirrorsFollow.same {s t : State} (h : s.MirrorsFollow) (hsys : t.sys.mirrors = s.sys.mirrors)
    (hu2s : t.u2s = s.u2s) (husb : t.usb.mirrored = s.usb.mirrored) : t.MirrorsFollow :=
  h.append [] hsys (by rw [hu2s, List.append_nil]) husb.symm

theorem PacketChange.mirrorsFollow {s t : State} {i : Instr} (h : PacketChange s i t) (hs : s.MirrorsFollow) :
    t.MirrorsFollow := by
  cases h with
  | closed | opened | inData | inNak | outNak | outRepeat => exact hs.same rfl rfl rfl
  | inStalled | outStalled | setup | outData | commit => exact hs.append _ rfl rfl rfl

theorem InUpdate.mirrored {depth : Nat} {u v : Usb} {m : S2UMsg} (h : InUpdate depth u m v) :
    u.mirrored.after [.inStatus v.inReady (levelOf v.inFifo) v.inOverflow] = v.mirrored := by
  obtain ⟨hstate, haddress, hspeed⟩ := h.device
  simp only [Usb.mirrored, hstate, haddress, hspeed, Mirrors.after, List.foldl_cons, List.foldl_nil, U2SMsg.mirror]

theorem OutUpdate.mirrored {u v : Usb} {m : S2UMsg} (h : OutUpdate u m v) : v.mirrored = u.mirrored := by
  cases h <;> rfl

theorem MsgEffect.mirrorsFollow {s t : State} {m : S2UMsg} (h : MsgEffect s m t) (hs : s.MirrorsFollow) :
    t.MirrorsFollow := by
  cases h with
  | ignored => exact hs
  | move | clear => exact hs.append _ rfl rfl rfl
  | inMsg update => exact hs.append _ rfl rfl update.mirrored
  | outMsg update => exact hs.same rfl rfl update.mirrored

theorem UsbStep.mirrorsFollow {a : Action} {s t : State} (h : UsbStep s a t) (hs : s.MirrorsFollow) :
    t.MirrorsFollow := by
  cases h with
  | nothing => exact hs
  | packet _ change => exact change.mirrorsFollow hs
  | timeout => exact hs.same rfl rfl rfl
  | lineState => exact hs.append _ rfl rfl rfl
  | busReset =>
    refine hs.append _ rfl (List.append_assoc _ _ _) ?_
    split <;> rfl
  | message _ effect => exact effect.mirrorsFollow (hs.same rfl rfl rfl)

/-- With both domains and `u2s` at their reset values, whatever the rest. -/
theorem mirrorsFollow_of_reset {s : State} (husb : s.usb = Usb.reset) (hsys : s.sys = Sys.reset) (hu2s : s.u2s = []) :
    s.MirrorsFollow := by
  rw [mirrorsFollow_iff, husb, hsys, hu2s]
  rfl

theorem act_mirrorsFollow {a : Action} {s t : State} (h : act a s = .next t) (hs : s.MirrorsFollow) :
    t.MirrorsFollow := by
  rcases act_domain_cases h with ⟨hfw, access⟩ | step | ⟨-, ⟨-, rfl⟩ | ⟨m, rest, hhead, rfl⟩⟩ | ⟨-, rfl⟩
  · exact hs.same (access_effect hfw h).mirrors access.u2s (by rw [access.usb])
  · exact step.mirrorsFollow hs
  · exact hs
  · rw [mirrorsFollow_iff, hhead] at hs
    rw [mirrorsFollow_iff, take_mirrors]
    exact hs
  · exact mirrorsFollow_of_reset rfl rfl rfl

/-- Settles O46: a change of a mirrored value appends the message that carries it. -/
theorem stepKeepsMirrorsFollow : Obligations.StepKeepsMirrorsFollow := fun _ _ =>
  step_keeps (P := State.MirrorsFollow) (fun _ _ _ h => h.same rfl rfl rfl) fun _ _ _ => act_mirrorsFollow

/-! ### The one stored OUT packet (44_out_endpoint.md R260, R262) -/

/-- The packet is on its way, or in one of the places that firmware sees or empties. -/
theorem outPlaces_eq (s : State) : s.outPlaces = s.u2s.countP U2SMsg.isOutData + s.sysPlaces := by
  rw [State.outPlaces, State.sysPlaces, Nat.add_assoc]
  cases s.sys.outAvailSys <;> rfl

theorem outConserved_iff (s : State) :
    s.OutConserved ↔ s.u2s.countP U2SMsg.isOutData + s.sysPlaces = s.usb.outAvail.toNat := by
  rw [State.OutConserved, outPlaces_eq]
  cases s.usb.outAvail <;> rfl

/-- An action that moves no OUT packet and appends none to `u2s` keeps it. -/
theorem State.OutConserved.append {s t : State} (h : s.OutConserved) (ms : List U2SMsg)
    (hplaces : t.sysPlaces = s.sysPlaces) (hu2s : t.u2s = s.u2s ++ ms) (hms : ms.countP U2SMsg.isOutData = 0)
    (havail : t.usb.outAvail = s.usb.outAvail) : t.OutConserved := by
  rw [outConserved_iff] at h ⊢
  rw [hplaces, hu2s, List.countP_append, hms, havail, Nat.add_zero, h]

theorem State.OutConserved.same {s t : State} (h : s.OutConserved) (hplaces : t.sysPlaces = s.sysPlaces)
    (hu2s : t.u2s = s.u2s) (havail : t.usb.outAvail = s.usb.outAvail) : t.OutConserved :=
  h.append [] hplaces (by rw [hu2s, List.append_nil]) rfl havail

theorem PacketChange.outConserved {s t : State} {i : Instr} (h : PacketChange s i t) (hs : s.OutConserved) :
    t.OutConserved := by
  cases h with
  | closed | opened | inData | inNak | outNak | outRepeat => exact hs.same rfl rfl rfl
  | inStalled | outStalled | setup | commit => exact hs.append _ rfl rfl rfl rfl
  | @outData _ payload ep _ _ havail =>
    rw [outConserved_iff, havail] at hs
    rw [outConserved_iff, List.countP_append]
    simp only [State.sysPlaces, Bool.toNat_false, Bool.toNat_true] at hs ⊢
    rw [show [U2SMsg.outData ep payload].countP U2SMsg.isOutData = 1 from rfl]
    omega

theorem InUpdate.outAvail {depth : Nat} {u v : Usb} {m : S2UMsg} (h : InUpdate depth u m v) :
    m ≠ .outAck ∧ v.outAvail = u.outAvail := by
  cases h <;> exact ⟨nofun, rfl⟩

theorem sysPlaces_of_head {s : State} {m : S2UMsg} {rest : List S2UMsg} (hhead : s.s2u = m :: rest) :
    s.sysPlaces = ({ s with s2u := rest } : State).sysPlaces + (if m = .outAck then 1 else 0) := by
  simp only [State.sysPlaces, hhead, List.countP_cons, beq_iff_eq, Nat.add_assoc]

/-- Of the messages, `M_OUT_ACK` takes the packet from its last place and clears `out_avail`; apart from it only a core
clear touches the packet. -/
theorem MsgEffect.outConserved {s t : State} {m : S2UMsg} {rest : List S2UMsg} (hhead : s.s2u = m :: rest)
    (h : MsgEffect { s with s2u := rest } m t) (hdisable : m ≠ .enable false) (hsoft : m ≠ .softReset)
    (hs : s.OutConserved) : t.OutConserved := by
  have hplaces := sysPlaces_of_head hhead
  have hother (hm : m ≠ .outAck) : ({ s with s2u := rest } : State).sysPlaces = s.sysPlaces := by
    rw [hplaces, if_neg hm, Nat.add_zero]
  cases h with
  | ignored hm => exact hs.same (hother hm) rfl rfl
  | move row => exact hs.append _ (hother (by rintro rfl; cases row)) rfl rfl rfl
  | clear row =>
    cases row with
    | disable => exact absurd rfl hdisable
    | powered | answering => exact absurd rfl hsoft
  | inMsg update =>
    obtain ⟨hm, havail⟩ := update.outAvail
    exact hs.append _ (hother hm) rfl rfl havail
  | outMsg update =>
    cases update with
    | ack =>
      rw [outConserved_iff, hplaces, if_pos rfl] at hs
      rw [outConserved_iff]
      have := Bool.toNat_le s.usb.outAvail
      change s.u2s.countP U2SMsg.isOutData + ({ s with s2u := rest } : State).sysPlaces = 0
      omega
    | stall | enable => exact hs.same (hother nofun) rfl rfl

theorem State.noClear_iff (a : Action) (s : State) :
    s.noClear a = true ↔ (∀ m ∈ s.u2s, m.isReset = false) ∧ a ≠ .busReset ∧
      (a = .s2u → s.s2u.head? ≠ some (.enable false) ∧ s.s2u.head? ≠ some .softReset) := by
  simp only [State.noClear, Bool.and_eq_true, Bool.not_eq_true', List.any_eq_false, bne_iff_ne, Bool.or_eq_true,
    Bool.not_eq_true, and_assoc, ne_eq, imp_iff_not_or]

theorem UsbStep.outConserved {a : Action} {s t : State} (h : UsbStep s a t) (hclear : s.noClear a = true)
    (hs : s.OutConserved) : t.OutConserved := by
  obtain ⟨-, hbus, hhead⟩ := (State.noClear_iff a s).1 hclear
  cases h with
  | nothing => exact hs
  | packet _ change => exact change.outConserved hs
  | timeout => exact hs.same rfl rfl rfl
  | lineState => exact hs.append _ rfl rfl rfl rfl
  | busReset => exact absurd rfl hbus
  | message heq effect =>
    obtain ⟨hdisable, hsoft⟩ := hhead rfl
    rw [heq] at hdisable hsoft
    exact effect.outConserved heq (fun hm => hdisable (by rw [hm]; rfl)) (fun hm => hsoft (by rw [hm]; rfl)) hs

/-- With the packet conserved there is none in the FIFO while one is on its way. -/
theorem State.OutConserved.not_avail_of_outData {s : State} (h : s.OutConserved) {ep : Ep} {d : List Byte}
    {rest : List U2SMsg} (hhead : s.u2s = .outData ep d :: rest) : s.sys.outAvailSys = false := by
  rw [outConserved_iff, hhead, List.countP_cons_of_pos rfl, State.sysPlaces] at h
  have := Bool.toNat_le s.usb.outAvail
  exact Bool.toNat_eq_zero.1 (by omega)

/-- Of the deliveries that clear nothing, only that of `E_OUT_DATA` touches `out_avail_sys`. -/
theorem take_outAvailSys {m : U2SMsg} (hreset : m.isReset = false) (y : Sys) :
    (y.take m).outAvailSys = (m.isOutData || y.outAvailSys) := by
  cases m with
  | reset kind => cases hreset
  | _ => rfl

theorem deliver_outConserved {s : State} {m : U2SMsg} {rest : List U2SMsg} (hhead : s.u2s = m :: rest)
    (hreset : m.isReset = false) (hs : s.OutConserved) :
    ({ s with u2s := rest, sys := s.sys.take m } : State).OutConserved := by
  have htake := take_outAvailSys hreset s.sys
  cases hm : m.isOutData with
  | true =>
    have hempty : s.sys.outAvailSys = false := by
      cases m with
      | outData => exact hs.not_avail_of_outData hhead
      | _ => cases hm
    rw [outConserved_iff, State.sysPlaces, hhead, List.countP_cons_of_pos hm, hempty, Bool.toNat_false] at hs
    rw [outConserved_iff, State.sysPlaces, htake, hm, Bool.true_or, Bool.toNat_true]
    simp only
    omega
  | false =>
    rw [outConserved_iff, State.sysPlaces, hhead, List.countP_cons_of_neg (by simp [hm])] at hs
    rw [outConserved_iff, State.sysPlaces, htake, hm, Bool.false_or]
    exact hs

/-- With both domains and both channels at their reset values, whatever the rest. -/
theorem outConserved_of_reset {s : State} (husb : s.usb = Usb.reset) (hsys : s.sys = Sys.reset) (hu2s : s.u2s = [])
    (hs2u : s.s2u = []) : s.OutConserved := by
  rw [outConserved_iff, State.sysPlaces, husb, hsys, hu2s, hs2u]
  rfl

/-- Settles O47. -/
theorem stepKeepsOutConserved : Obligations.StepKeepsOutConserved := by
  intro a s t h hclear hs
  rcases act_domain_cases h with ⟨hfw, access⟩ | step | ⟨-, ⟨-, rfl⟩ | ⟨m, rest, hhead, rfl⟩⟩ | ⟨-, rfl⟩
  · exact hs.same (access_effect hfw h).sysPlaces access.u2s (by rw [access.usb])
  · exact step.outConserved hclear hs
  · exact hs
  · obtain ⟨hreset, -⟩ := (State.noClear_iff a s).1 hclear
    rw [hhead] at hreset
    exact deliver_outConserved hhead (hreset m List.mem_cons_self) hs
  · exact outConserved_of_reset rfl rfl rfl rfl

theorem quiescent_iff (s : State) : s.quiescent = true ↔ s.s2u = [] ∧ s.u2s = [] ∧ s.usb.xact = .idle := by
  simp [State.quiescent, and_assoc]

/-- Settles O48: the packet is in one place only, and in a quiescent state the FIFO is the only place left. -/
theorem noUnreadPacketReplaced : Obligations.NoUnreadPacketReplaced := by
  intro s hs
  refine ⟨fun _ _ _ => hs.not_avail_of_outData, fun hquiet => ?_⟩
  obtain ⟨hs2u, hu2s, -⟩ := (quiescent_iff s).1 hquiet
  rw [outConserved_iff, State.sysPlaces, hs2u, hu2s, List.countP_nil, List.countP_nil, Nat.zero_add, Nat.add_zero] at hs
  exact ((show Function.Injective Bool.toNat by decide) hs).symm

/-- Settles O49. -/
theorem resetMeetsInvariants : Obligations.ResetMeetsInvariants :=
  ⟨inv_of_reset rfl rfl rfl, mirrorsFollow_of_reset rfl rfl rfl, outConserved_of_reset rfl rfl rfl rfl⟩

end Sys2Proof.Machine
end

section
/-! Proofs about the two clock domains (10_state.md R20): neither reads nor writes the other's state. -/

namespace Sys2Proof.Machine

open Sys2Proof

/-- The answer of a step with its next state changed by `f`. -/
def Out.map (f : State → State) : Out → Out
  | .next t => .next (f t)
  | .fault r => .fault r
  | .refused r => .refused r

/-! ### Firmware and `U2S` do not read the USB domain -/

section

variable (s : State) (u : Usb)

theorem outClear_withUsb : outClear { s with usb := u } = { outClear s with usb := u } := by
  unfold outClear
  split <;> rfl

theorem exec_read_withUsb (r : Reg) :
    exec r.readInstr { s with usb := u } = Out.map (fun t => { t with usb := u }) (exec r.readInstr s) := by
  cases r
  case outData =>
    simp only [Reg.readInstr, exec, execROutData]
    split <;> rfl
  all_goals rfl

theorem exec_write_withUsb (r : Reg) (v : Word) :
    exec (r.writeInstr v) { s with usb := u } = Out.map (fun t => { t with usb := u }) (exec (r.writeInstr v) s) := by
  cases r
  case outAck | outCtrl =>
    simp only [Reg.writeInstr, exec, execWOutAck, execWOutCtrl]
    split
    exacts [congrArg _ (outClear_withUsb s u), rfl]
  case outStall =>
    simp only [Reg.writeInstr, exec, execWOutStall]
    split
    · exact congrArg (fun t => Host.Outcome.next (State.sendS2U (.outStall (maskField v)) t))
        (outClear_withUsb (s.modSys fun y => { y with outStallReg := maskField v }) u)
    · rfl
  case inStall =>
    simp only [Reg.writeInstr, exec, execWInStall]
    split <;> rfl
  case dcCtrl | inReady | inCtrl | setupAck =>
    simp only [Reg.writeInstr, exec, execWDcCtrl, execWInReady, execWInCtrl, execWSetupAck]
    split <;> rfl
  all_goals rfl

theorem act_withUsb {a : Action} (ha : isFw a = true ∨ a = .u2s) :
    act a { s with usb := u } = Out.map (fun t => { t with usb := u }) (act a s) := by
  rcases a with (⟨bytes, err⟩ | ad | ⟨ad, v⟩) | _ | _ | ls | _ | _ | _
  case input.csrRead =>
    simp only [act, runInput]
    cases hdecode : decode s.cfg.csrBase (.csrRead ad) with
    | ok i =>
      obtain ⟨r, -, -, rfl⟩ := decodeAccess_ok hdecode
      exact exec_read_withUsb s u r
    | error r => cases r <;> rfl
  case input.csrWrite =>
    simp only [act, runInput]
    cases hdecode : decode s.cfg.csrBase (.csrWrite ad v) with
    | ok i =>
      obtain ⟨r, -, -, rfl⟩ := decodeAccess_ok hdecode
      exact exec_write_withUsb s u r v
    | error r => cases r <;> rfl
  case u2s =>
    simp only [act, deliverU2S]
    split <;> rfl
  all_goals simp [isFw] at ha

end

/-! ### `HOST`/`USB` and `S2U` do not read the system domain -/

/-- `f` carries the system domain along. -/
def IgnoresSys (f : State → State) : Prop := ∀ (s : State) (y : Sys), f { s with sys := y } = { f s with sys := y }

theorem setXact_ignoresSys (x : Xact) : IgnoresSys (State.setXact x) := fun _ _ => rfl

theorem IgnoresSys.ite {c : State → Prop} [DecidablePred c] {f g : State → State}
    (hc : ∀ (s : State) (y : Sys), c { s with sys := y } ↔ c s) (hf : IgnoresSys f) (hg : IgnoresSys g) :
    IgnoresSys fun s => if c s then f s else g s := by
  intro s y
  by_cases h : c s
  · simp only [if_pos h, if_pos ((hc s y).2 h), hf s y]
  · simp only [if_neg h, if_neg (mt (hc s y).1 h), hg s y]

theorem outToken_ignoresSys (ep : Ep) : IgnoresSys (outToken ep) :=
  .ite (fun _ _ => Iff.rfl) (setXact_ignoresSys _) fun _ _ => rfl

theorem setupToken_ignoresSys (ep : Ep) : IgnoresSys (setupToken ep) :=
  .ite (fun _ _ => Iff.rfl) (setXact_ignoresSys _) fun _ _ => rfl

/-- The tests of R220 read the USB domain only. -/
theorem inToken_ignoresSys (ep : Ep) : IgnoresSys (inToken ep) :=
  .ite (fun _ _ => Iff.rfl) (fun _ _ => rfl) <|
    .ite (fun _ _ => Iff.rfl) (fun _ _ => rfl) <|
      .ite (fun _ _ => Iff.rfl) (fun _ _ => rfl) fun _ _ => rfl

theorem onToken_ignoresSys {f : State → State} (addr : DevAddr) (hf : IgnoresSys f) : IgnoresSys (onToken addr f) := by
  intro s y
  rcases onToken_cases addr f s with ⟨haccepted, heq⟩ | ⟨hnot, heq⟩
  · rcases onToken_cases addr f { s with sys := y } with ⟨-, heq'⟩ | ⟨hnot, -⟩
    · rw [heq, heq']
      exact hf (s.setXact .idle) y
    · exact absurd (haccepted.symm.trans hnot) nofun
  · rw [heq, onToken_of_not_accepted (s := { s with sys := y }) f hnot]
    rfl

theorem setupPacket_ignoresSys (ep : Ep) (payload : List Byte) : IgnoresSys (setupPacket ep payload) := by
  intro s y
  cases hd : SetupBytes.ofPayload payload with
  | none =>
    have hlen := (ofPayload_eq_none_iff payload).1 hd
    rw [setupPacket_of_length_ne ep _ hlen, setupPacket_of_length_ne ep _ hlen]
    rfl
  | some d => rw [setupPacket_of_some ep _ hd, setupPacket_of_some ep _ hd]

/-- The tests of R251 read the USB domain and the parameters only. -/
theorem outPacket_ignoresSys (ep : Ep) (t : Bool) (payload : List Byte) : IgnoresSys (outPacket ep t payload) :=
  .ite (fun _ _ => Iff.rfl) (setXact_ignoresSys _) <|
    .ite (fun _ _ => Iff.rfl) (fun _ _ => rfl) <|
      .ite (fun _ _ => Iff.rfl) (fun _ _ => rfl) <|
        .ite (fun _ _ => Iff.rfl) (fun _ _ => rfl) fun _ _ => rfl

theorem onData_ignoresSys (t : Bool) (payload : List Byte) : IgnoresSys (onData t payload) := by
  intro s y
  unfold onData
  dsimp only
  split
  · exact setupPacket_ignoresSys _ payload s y
  · exact outPacket_ignoresSys _ t payload s y
  · rfl
  · rfl

theorem busReset_ignoresSys : IgnoresSys busReset := by
  intro s y
  by_cases hd : s.usb.devState = .detached
  · rw [busReset_of_detached hd, busReset_of_detached (s := { s with sys := y }) hd]
  · rw [busReset_of_ne hd, busReset_of_ne (s := { s with sys := y }) hd]

theorem lineChange_ignoresSys (ls : LineState) : IgnoresSys (lineChange ls) := by
  intro s y
  unfold lineChange
  split <;> rfl

theorem applySoftReset_with (s : State) (y : Sys) (q : List S2UMsg) (l : List Action) :
    applySoftReset { s with sys := y, s2u := q, agenda := l } =
      { applySoftReset s with sys := y, s2u := q, agenda := l } := by
  by_cases hdetached : s.usb.devState = .detached
  · rw [applySoftReset_of_detached hdetached]
    exact applySoftReset_of_detached hdetached
  by_cases hpowered : s.usb.devState = .powered
  · rw [applySoftReset_of_powered hpowered]
    exact applySoftReset_of_powered hpowered
  · rw [applySoftReset_of_ne hdetached hpowered]
    exact applySoftReset_of_ne hdetached hpowered

/-- The rule of a message carries along the system domain, `s2u` and the agenda. -/
theorem applyS2U_with (m : S2UMsg) (s : State) (y : Sys) (q : List S2UMsg) (l : List Action) :
    applyS2U m { s with sys := y, s2u := q, agenda := l } = { applyS2U m s with sys := y, s2u := q, agenda := l } := by
  cases m
  case enable v => simp only [applyS2U, applyEnable]; split <;> split <;> rfl
  case address a => simp only [applyS2U, applyAddress]; split <;> (try split) <;> rfl
  case configured v => simp only [applyS2U, applyConfigured]; split <;> rfl
  case softReset => exact applySoftReset_with s y q l
  all_goals rfl

theorem applyS2U_ignoresSys (m : S2UMsg) : IgnoresSys (applyS2U m) := by
  intro s y
  obtain ⟨-, hs2u, -, -, -, -, hagenda, -⟩ := applyS2U_frame m s
  have h := applyS2U_with m s y s.s2u s.agenda
  exact h.trans (by simp only [hs2u, hagenda])

theorem deliverS2U_ignoresSys : IgnoresSys deliverS2U := by
  intro s y
  rcases deliverS2U_cases s with ⟨hempty, heq⟩ | ⟨m, rest, hhead, heq⟩ <;> rw [heq]
  · simp only [deliverS2U, hempty]
  · simp only [deliverS2U, hhead]
    exact applyS2U_ignoresSys m { s with s2u := rest } y

theorem exec_pid_withSys {i : Instr} (hi : isPid i = true) (s : State) (y : Sys) :
    exec i { s with sys := y } = Out.map (fun t => { t with sys := y }) (exec i s) := by
  cases i
  case pidOut addr ep => exact congrArg _ (onToken_ignoresSys addr (outToken_ignoresSys ep) s y)
  case pidIn addr ep => exact congrArg _ (onToken_ignoresSys addr (inToken_ignoresSys ep) s y)
  case pidSetup addr ep => exact congrArg _ (onToken_ignoresSys addr (setupToken_ignoresSys ep) s y)
  case pidData0 payload => exact congrArg _ (onData_ignoresSys false payload s y)
  case pidData1 payload => exact congrArg _ (onData_ignoresSys true payload s y)
  case pidAck =>
    simp only [exec, execPidAck]
    split <;> rfl
  all_goals cases hi <;> rfl

theorem act_withSys {a : Action} (hfw : isFw a = false) (hu2s : a ≠ .u2s) (hpower : a ≠ .powerOn) (s : State) (y : Sys) :
    act a { s with sys := y } = Out.map (fun t => { t with sys := y }) (act a s) := by
  rcases a with (⟨bytes, err⟩ | ad | ⟨ad, v⟩) | _ | _ | ls | _ | _ | _
  case input.packet =>
    simp only [act, runInput]
    cases hdecode : decode s.cfg.csrBase (.packet bytes err) with
    | ok i => exact exec_pid_withSys (decode_packet hdecode).1 s y
    | error r => cases r <;> rfl
  case busReset => exact congrArg _ (busReset_ignoresSys s y)
  case timeout => rfl
  case lineState => exact congrArg _ (lineChange_ignoresSys ls s y)
  case s2u => exact congrArg _ (deliverS2U_ignoresSys s y)
  case u2s => exact absurd rfl hu2s
  case powerOn => exact absurd rfl hpower
  all_goals cases hfw

theorem act_usb_of_fw_or_u2s {a : Action} {s t : State} (ha : isFw a = true ∨ a = .u2s) (h : act a s = .next t) :
    t.usb = s.usb := by
  rcases ha with hfw | rfl
  · exact (access_frame hfw h).usb
  · cases h
    rcases deliverU2S_cases s with ⟨-, heq⟩ | ⟨m, rest, -, heq⟩ <;> rw [heq]

/-- Settles O51. -/
theorem domainsIsolated : Obligations.DomainsIsolated := by
  intro a s t h hpower
  refine ⟨fun ha => ⟨act_usb_of_fw_or_u2s ha h, fun u => ?_⟩, fun hfw hu2s => ⟨act_sys h hfw hu2s hpower, fun y => ?_⟩⟩
  · rw [act_withUsb s u ha, h]
    rfl
  · rw [act_withSys hfw hu2s hpower s y, h]
    rfl

end Sys2Proof.Machine
end

section
/-! Proofs about runs: deliveries in order, two SETUPs in a row, and fair runs (20_memory.md R92, R94). -/

namespace Sys2Proof.Machine

open Sys2Proof

/-! ### Deliveries in order (R92) -/

/-- A run whose first step has a next state goes on from there. -/
theorem run_succ {s t : State} (k : Nat) (h : step s = .next t) :
    Host.Core.run Sys2Proof.core (k + 1) s = Host.Core.run Sys2Proof.core k t := by
  have hcore : Sys2Proof.core.step s = .next t := h
  simp only [Host.Core.run, hcore]

theorem step_u2s {s : State} {l : List Action} {m : U2SMsg} {rest : List U2SMsg} (hagenda : s.agenda = .u2s :: l)
    (hhead : s.u2s = m :: rest) : step s = .next { s with agenda := l, u2s := rest, sys := s.sys.take m } :=
  (step_cons hagenda).trans (act_u2s_eq (s := { s with agenda := l }) hhead)

theorem step_s2u {s : State} {l : List Action} {m : S2UMsg} {rest : List S2UMsg} (hagenda : s.agenda = .s2u :: l)
    (hhead : s.s2u = m :: rest) : step s = .next (applyS2U m { s with agenda := l, s2u := rest }) :=
  (step_cons hagenda).trans (act_s2u_eq (s := { s with agenda := l }) hhead rfl)

theorem run_u2s (k : Nat) {s : State} {l : List Action} (hagenda : s.agenda = List.replicate k .u2s ++ l)
    (hlen : k ≤ s.u2s.length) :
    Host.Core.run Sys2Proof.core k s =
      .next ({ s with
        agenda := l, u2s := s.u2s.drop k, sys := (s.u2s.take k).foldl (fun y m => y.take m) s.sys } : State) := by
  induction k generalizing s with
  | zero =>
    rw [List.replicate_zero, List.nil_append] at hagenda
    subst hagenda
    rfl
  | succ k ih =>
    cases hhead : s.u2s with
    | nil => rw [hhead] at hlen; simp at hlen
    | cons m rest =>
      rw [run_succ k (step_u2s hagenda hhead)]
      rw [hhead, List.length_cons] at hlen
      exact ih rfl (Nat.le_of_succ_le_succ hlen)

/-- The rule of a message does not depend on what stands behind it in `s2u`, nor on the agenda. -/
theorem applyS2U_rest (m : S2UMsg) (s : State) (q : List S2UMsg) (l : List Action) :
    applyS2U m { s with agenda := l, s2u := q } = { applyS2U m s with agenda := l, s2u := q } := by
  obtain ⟨hsys, -⟩ := applyS2U_frame m s
  exact (applyS2U_with m s s.sys q l).trans (by simp only [hsys])

theorem run_s2u (k : Nat) {s : State} {l : List Action} (hagenda : s.agenda = List.replicate k .s2u ++ l)
    (hlen : k ≤ s.s2u.length) :
    Host.Core.run Sys2Proof.core k s =
      .next ((s.s2u.take k).foldl (fun t m => applyS2U m t) { s with agenda := l, s2u := s.s2u.drop k } : State) := by
  induction k generalizing s with
  | zero =>
    rw [List.replicate_zero, List.nil_append] at hagenda
    subst hagenda
    rfl
  | succ k ih =>
    cases hhead : s.s2u with
    | nil => rw [hhead] at hlen; simp at hlen
    | cons m rest =>
      rw [hhead, List.length_cons] at hlen
      rw [run_succ k (step_s2u hagenda hhead), List.take_succ_cons, List.foldl_cons, List.drop_succ_cons]
      simp only [applyS2U_rest]
      exact ih rfl (Nat.le_of_succ_le_succ hlen)

/-- Settles O53. -/
theorem channelsDeliverInOrder : Obligations.ChannelsDeliverInOrder := fun k _ _ => ⟨run_u2s k, run_s2u k⟩

/-- Settles O59: the first delivery leaves `setup_ready` set, so the second records the overwrite. -/
theorem lastSetupWins : Obligations.LastSetupWins := by
  intro s rest e1 e2 d1 d2 c1 c2 more hagenda hhead
  refine ⟨_, run_u2s 2 hagenda (by rw [hhead]; exact Nat.le_add_left 2 _), ?_⟩
  rw [hhead]
  simp [Sys.take, takeSetup_eq]

/-! ### Fair runs (R94) -/

/-- A channel along a run: unless it is emptied by force, it loses at most its head, and that at a delivery, and gains at
its tail; and no moment comes from which on it is never empty and never delivers. -/
structure FairQueue {α : Type} (chan : Nat → List α) (delivers emptied : Nat → Prop) : Prop where
  keep : ∀ k, ¬emptied k → ¬delivers k → ∃ ms, chan (k + 1) = chan k ++ ms
  pop : ∀ k, ¬emptied k → delivers k → ∃ ms, chan (k + 1) = (chan k).tail ++ ms
  fair : ∀ n, ∃ k, n ≤ k ∧ (chan k = [] ∨ delivers k)

section

variable {α : Type} {chan : Nat → List α} {delivers emptied : Nat → Prop} (hq : FairQueue chan delivers emptied)

include hq

/-- The head stays where it is until it is delivered, by induction on the time to the fair moment. -/
theorem FairQueue.head_delivered (d : Nat) {n : Nat} {x : α} {l : List α} (hkeep : ∀ k, n ≤ k → ¬emptied k)
    (hfair : chan (n + d) = [] ∨ delivers (n + d)) (hhead : chan n = x :: l) :
    ∃ k, n ≤ k ∧ delivers k ∧ ∃ more, chan k = x :: (l ++ more) := by
  by_cases hnow : delivers n
  · exact ⟨n, le_rfl, hnow, [], by rw [hhead, List.append_nil]⟩
  induction d generalizing n l with
  | zero =>
    rcases hfair with hempty | hdeliver
    · rw [Nat.add_zero, hhead] at hempty
      cases hempty
    · exact absurd hdeliver hnow
  | succ d ih =>
    obtain ⟨ms, hnext⟩ := hq.keep n (hkeep n le_rfl) hnow
    rw [hhead, List.cons_append] at hnext
    by_cases hsoon : delivers (n + 1)
    · exact ⟨n + 1, Nat.le_succ n, hsoon, ms, hnext⟩
    rw [Nat.add_comm d 1, ← Nat.add_assoc] at hfair
    obtain ⟨k, hk, hdeliver, more, hchan⟩ :=
      ih (fun k hk => hkeep k (Nat.le_of_succ_le hk)) hfair hnext hsoon
    exact ⟨k, Nat.le_of_succ_le hk, hdeliver, ms ++ more, by rw [hchan, List.append_assoc]⟩

/-- The messages ahead are delivered one after the other, by induction on them. -/
theorem FairQueue.delivered_of_kept (before : List α) {n : Nat} {x : α} {behind : List α}
    (hkeep : ∀ k, n ≤ k → ¬emptied k) (hchan : chan n = before ++ x :: behind) :
    ∃ k, n ≤ k ∧ delivers k ∧ ∃ more, chan k = x :: (behind ++ more) := by
  induction before generalizing n behind with
  | nil =>
    obtain ⟨k, hk, hfair⟩ := hq.fair n
    obtain ⟨d, rfl⟩ := Nat.exists_eq_add_of_le hk
    exact hq.head_delivered d hkeep hfair hchan
  | cons b before ih =>
    obtain ⟨k, hk, hfair⟩ := hq.fair n
    obtain ⟨d, rfl⟩ := Nat.exists_eq_add_of_le hk
    obtain ⟨j, hj, hdeliver, more, hhead⟩ := hq.head_delivered d hkeep hfair hchan
    obtain ⟨ms, hnext⟩ := hq.pop j (hkeep j hj) hdeliver
    have hbehind : chan (j + 1) = before ++ x :: (behind ++ (more ++ ms)) := by
      rw [hnext, hhead]
      simp
    obtain ⟨i, hi, hdeliver', more', hi'⟩ :=
      ih (fun i hi => hkeep i (hj.trans (Nat.le_of_succ_le hi))) hbehind
    exact ⟨i, hj.trans (Nat.le_of_succ_le hi), hdeliver', more ++ ms ++ more', by rw [hi']; simp⟩

theorem FairQueue.delivered {before : List α} {n : Nat} {x : α} {behind : List α}
    (hchan : chan n = before ++ x :: behind) :
    ∃ k, n ≤ k ∧ ((delivers k ∧ ∃ more, chan k = x :: (behind ++ more)) ∨ emptied k) := by
  by_cases hempty : ∃ k, n ≤ k ∧ emptied k
  · obtain ⟨k, hk, hempty⟩ := hempty
    exact ⟨k, hk, .inr hempty⟩
  · obtain ⟨k, hk, hdelivered⟩ :=
      hq.delivered_of_kept before (fun k hk hempty' => hempty ⟨k, hk, hempty'⟩) hchan
    exact ⟨k, hk, .inl hdelivered⟩

end

section

variable {σ : Nat → Action} {r : Nat → State} (hrun : Run σ r) (hfair : Fair σ r)

include hrun hfair

/-- A fair run makes `u2s` a fair queue that power-on alone empties. -/
theorem u2s_fairQueue : FairQueue (fun n => (r n).u2s) (fun n => σ n = .u2s) (fun n => σ n = .powerOn) := by
  refine ⟨fun k hpower hnot => ?_, fun k hpower hdeliver => ?_, hfair.u2s⟩
  all_goals
    obtain ⟨l, d, h⟩ := hrun k
    obtain ⟨⟨ms, hu2s, -⟩, -⟩ := channelsAppendOnly _ _ _ h hpower
    refine ⟨ms, ?_⟩
  · rwa [if_neg hnot] at hu2s
  · rwa [if_pos hdeliver] at hu2s

/-- A fair run makes `s2u` a fair queue that power-on and the flush empty. -/
theorem s2u_fairQueue :
    FairQueue (fun n => (r n).s2u) (fun n => σ n = .s2u) (fun n => σ n = .powerOn ∨ (r n).flushes (σ n)) := by
  refine ⟨fun k hkept hnot => ?_, fun k hkept hdeliver => ?_, hfair.s2u⟩
  all_goals
    obtain ⟨l, d, h⟩ := hrun k
    obtain ⟨-, ⟨ms, hs2u, -⟩ | ⟨ha, hd, hflush, -⟩⟩ := channelsAppendOnly _ _ _ h fun hpower => hkept (.inl hpower)
    swap
    · exact absurd (.inr ⟨ha, hd, hflush⟩) hkept
    refine ⟨ms, ?_⟩
  · rwa [if_neg hnot] at hs2u
  · rwa [if_pos hdeliver] at hs2u

end

/-- Settles O60. -/
theorem fairRunsDeliver : Obligations.FairRunsDeliver := fun _ _ hrun hfair =>
  ⟨fun _ _ _ _ hchan => (u2s_fairQueue hrun hfair).delivered hchan,
    fun _ _ _ _ hchan => (s2u_fairQueue hrun hfair).delivered hchan⟩

end Sys2Proof.Machine
end
